-- ==== Sys2Proof/Word.lean ====
section
/-! DEFINITION. The word type, the register code and their widths (spec/10_state.md R10, R27, R35). -/

namespace Sys2Proof

/-- A register value, a memory cell or an address: 16 bits (R10, R13, R27). R35: a 16-bit vector, whose
signed and unsigned readings are two views of the same bits; as an address it is read unsigned. -/
abbrev Word := BitVec 16

/-- A register code: 3 bits, so it names x[0] to x[7] and nothing else (R10, R12). -/
abbrev Reg := BitVec 3

end Sys2Proof
end

