-- ==== Sys2Proof/Syntax.lean ====
section
/-! DEFINITION. The instructions: one constructor per row of spec/opcode_table.json (spec/30_encoding.md R73, R76).
An operand field is a bit vector of exactly the field's width (R72), so every term of `Instr` is an instruction of
the hardware and no operand is out of range. RET is `jmp 7` (R83): no constructor of its own. -/

namespace Sys2Proof

/-- One 16-bit instruction, as its decoder sees it. Bits a row ignores (R77) are no operand and are not kept. -/
inductive Instr where
  /-- BR: requested conditions n, z, p (IR[11:9], in that order) and PCoffset9 (R140). -/
  | br (nzp : BitVec 3) (pcOffset9 : BitVec 9)
  /-- ADD, register form: DR, SR1, SR2 (R110). -/
  | addReg (dr sr1 sr2 : Reg)
  /-- ADD, immediate form: DR, SR1, imm5 (R111). -/
  | addImm (dr sr1 : Reg) (imm5 : BitVec 5)
  /-- AND, register form: DR, SR1, SR2 (R112). -/
  | andReg (dr sr1 sr2 : Reg)
  /-- AND, immediate form: DR, SR1, imm5 (R113). -/
  | andImm (dr sr1 : Reg) (imm5 : BitVec 5)
  /-- NOT: DR, SR (R114). -/
  | not (dr sr : Reg)
  /-- LD: DR, PCoffset9 (R120). -/
  | ld (dr : Reg) (pcOffset9 : BitVec 9)
  /-- LDI: DR, PCoffset9 (R123). -/
  | ldi (dr : Reg) (pcOffset9 : BitVec 9)
  /-- LDR: DR, BaseR, offset6 (R124). -/
  | ldr (dr baseR : Reg) (offset6 : BitVec 6)
  /-- LEA: DR, PCoffset9 (R125). -/
  | lea (dr : Reg) (pcOffset9 : BitVec 9)
  /-- ST: SR, PCoffset9 (R130). -/
  | st (sr : Reg) (pcOffset9 : BitVec 9)
  /-- STI: SR, PCoffset9 (R132). -/
  | sti (sr : Reg) (pcOffset9 : BitVec 9)
  /-- STR: SR, BaseR, offset6 (R133). -/
  | str (sr baseR : Reg) (offset6 : BitVec 6)
  /-- JMP (RET when BaseR is 7): BaseR (R143). -/
  | jmp (baseR : Reg)
  /-- JSR: PCoffset11 (R144). -/
  | jsr (pcOffset11 : BitVec 11)
  /-- JSRR: BaseR (R145). -/
  | jsrr (baseR : Reg)
  /-- TRAP: trapvect8 (R147). -/
  | trap (trapvect8 : BitVec 8)
  /-- RTI: no operand (R160). -/
  | rti
  /-- The illegal opcode 1101, row RESERVED of the table: no operand (R162). -/
  | reserved
  deriving DecidableEq, Repr

end Sys2Proof
end

