-- ==== Sys2Proof/WellFormed.lean ====
section
/-! DEFINITION. What is left to check of an instruction.

A TERM of `Instr` needs no check: its operands have the widths of spec/30_encoding.md R72 by their types, and the spec
calls no operand value reserved (R79: no encodings whose behaviour is undefined). What can be ill-formed is an
instruction WORD: R73 gives each ignored bit the value an assembler conventionally emits. The hardware executes a word
with other values there just the same (R77), so the check below refuses nothing at run time; it says which words the
encoder can give back. -/

namespace Sys2Proof

/-- The bits of the word that its row of R73 does not mark `-`: the bits that take part in decoding or execution. -/
def usedBits (w : Word) : Word :=
  match w.getLsbD 15, w.getLsbD 14, w.getLsbD 13, w.getLsbD 12 with
  | false, false, false, true  => bif w.getLsbD 5 then 0xFFFF#16 else 0xFFE7#16   -- ADD
  | false, true,  false, true  => bif w.getLsbD 5 then 0xFFFF#16 else 0xFFE7#16   -- AND
  | true,  false, false, true  => 0xFFC0#16                                      -- NOT
  | true,  true,  false, false => 0xF1C0#16                                      -- JMP
  | false, true,  false, false => bif w.getLsbD 11 then 0xFFFF#16 else 0xF9C0#16  -- JSR, JSRR
  | true,  true,  true,  true  => 0xF0FF#16                                      -- TRAP
  | true,  false, false, false => 0xF000#16                                      -- RTI
  | true,  true,  false, true  => 0xF000#16                                      -- reserved
  | _, _, _, _ => 0xFFFF#16

/-- What the ignored bits conventionally hold (R73, in parentheses): ones for NOT, zeros for the others.
DESIGN CHOICE (log entry 9): R73 gives no convention for the ignored bits of opcode 1101; zeros here. -/
def conventionalFill (w : Word) : Word :=
  match w.getLsbD 15, w.getLsbD 14, w.getLsbD 13, w.getLsbD 12 with
  | true, false, false, true => 0x003F#16
  | _, _, _, _ => 0x0000#16

/-- The word is the one an assembler emits: its ignored bits hold their conventional values. -/
def wellFormedWord (w : Word) : Bool :=
  w &&& ~~~ usedBits w == conventionalFill w

end Sys2Proof
end

