-- ==== Sys2Proof/Decode.lean ====
section
/-! DEFINITION. The decoder and the encoder (spec/30_encoding.md R70 to R81, spec/40_cycle_driver.md R98).
Every 16-bit word is an instruction (R81), so `decode` is total and refuses nothing; what is refused, by name, is a
string of bits that is not one cell. Opcode numbers and register field positions are the standard LC-3 ones, which the
spec supplies itself (R73, R76, 92_eei_decisions.md D22; log entry 2). -/

namespace Sys2Proof

/-- DR, or the SR of a store: IR[11:9] (R72). -/
def fieldDR (ir : Word) : Reg := ir.extractLsb' 9 3
/-- SR1, the SR of NOT, or BaseR: IR[8:6] (R72). -/
def fieldSR1 (ir : Word) : Reg := ir.extractLsb' 6 3
/-- SR2: IR[2:0] (R72). -/
def fieldSR2 (ir : Word) : Reg := ir.extractLsb' 0 3
/-- The requested conditions of BR: n, z, p = IR[11], IR[10], IR[9] (R72). -/
def fieldNzp (ir : Word) : BitVec 3 := ir.extractLsb' 9 3
/-- imm5: IR[4:0] (R72). -/
def fieldImm5 (ir : Word) : BitVec 5 := ir.extractLsb' 0 5
/-- offset6: IR[5:0] (R72). -/
def fieldOffset6 (ir : Word) : BitVec 6 := ir.extractLsb' 0 6
/-- PCoffset9: IR[8:0] (R72). -/
def fieldPcOffset9 (ir : Word) : BitVec 9 := ir.extractLsb' 0 9
/-- PCoffset11: IR[10:0] (R72). -/
def fieldPcOffset11 (ir : Word) : BitVec 11 := ir.extractLsb' 0 11
/-- trapvect8: IR[7:0] (R72). -/
def fieldTrapvect8 (ir : Word) : BitVec 8 := ir.extractLsb' 0 8

/-- The instruction a word stands for: dispatch on IR[15:12], then on IR[5] (ADD, AND) or IR[11] (JSR, JSRR); no other
bit selects (R71, R76, R98). The match is over the four opcode bits and has all sixteen patterns. -/
def decode (ir : Word) : Instr :=
  match ir.getLsbD 15, ir.getLsbD 14, ir.getLsbD 13, ir.getLsbD 12 with
  | false, false, false, false => .br (fieldNzp ir) (fieldPcOffset9 ir)
  | false, false, false, true  =>
      bif ir.getLsbD 5 then .addImm (fieldDR ir) (fieldSR1 ir) (fieldImm5 ir)
      else .addReg (fieldDR ir) (fieldSR1 ir) (fieldSR2 ir)
  | false, false, true,  false => .ld (fieldDR ir) (fieldPcOffset9 ir)
  | false, false, true,  true  => .st (fieldDR ir) (fieldPcOffset9 ir)
  | false, true,  false, false =>
      bif ir.getLsbD 11 then .jsr (fieldPcOffset11 ir) else .jsrr (fieldSR1 ir)
  | false, true,  false, true  =>
      bif ir.getLsbD 5 then .andImm (fieldDR ir) (fieldSR1 ir) (fieldImm5 ir)
      else .andReg (fieldDR ir) (fieldSR1 ir) (fieldSR2 ir)
  | false, true,  true,  false => .ldr (fieldDR ir) (fieldSR1 ir) (fieldOffset6 ir)
  | false, true,  true,  true  => .str (fieldDR ir) (fieldSR1 ir) (fieldOffset6 ir)
  | true,  false, false, false => .rti
  | true,  false, false, true  => .not (fieldDR ir) (fieldSR1 ir)
  | true,  false, true,  false => .ldi (fieldDR ir) (fieldPcOffset9 ir)
  | true,  false, true,  true  => .sti (fieldDR ir) (fieldPcOffset9 ir)
  | true,  true,  false, false => .jmp (fieldSR1 ir)
  | true,  true,  false, true  => .reserved
  | true,  true,  true,  false => .lea (fieldDR ir) (fieldPcOffset9 ir)
  | true,  true,  true,  true  => .trap (fieldTrapvect8 ir)

/-- A field put into a word with its lowest bit at bit `lo`. -/
def place {n : Nat} (v : BitVec n) (lo : Nat) : Word := v.setWidth 16 <<< lo

/-- The word of an instruction, from the formats of R73: the opcode and mode bits and the ignored bits at their conventional
values make the constant, and each field stands at its place of R72. -/
def encode : Instr → Word
  | .br nzp off        => 0x0000#16 ||| place nzp 9 ||| place off 0
  | .addReg dr sr1 sr2 => 0x1000#16 ||| place dr 9 ||| place sr1 6 ||| place sr2 0
  | .addImm dr sr1 imm => 0x1020#16 ||| place dr 9 ||| place sr1 6 ||| place imm 0
  | .andReg dr sr1 sr2 => 0x5000#16 ||| place dr 9 ||| place sr1 6 ||| place sr2 0
  | .andImm dr sr1 imm => 0x5020#16 ||| place dr 9 ||| place sr1 6 ||| place imm 0
  | .not dr sr         => 0x903F#16 ||| place dr 9 ||| place sr 6
  | .ld dr off         => 0x2000#16 ||| place dr 9 ||| place off 0
  | .ldi dr off        => 0xA000#16 ||| place dr 9 ||| place off 0
  | .lea dr off        => 0xE000#16 ||| place dr 9 ||| place off 0
  | .st sr off         => 0x3000#16 ||| place sr 9 ||| place off 0
  | .sti sr off        => 0xB000#16 ||| place sr 9 ||| place off 0
  | .ldr dr base off   => 0x6000#16 ||| place dr 9 ||| place base 6 ||| place off 0
  | .str sr base off   => 0x7000#16 ||| place sr 9 ||| place base 6 ||| place off 0
  | .jmp base          => 0xC000#16 ||| place base 6
  | .jsr off           => 0x4800#16 ||| place off 0
  | .jsrr base         => 0x4000#16 ||| place base 6
  | .trap vect         => 0xF000#16 ||| place vect 0
  | .rti               => 0x8000#16
  | .reserved          => 0xD000#16

/-- A row of spec/opcode_table.json: its mnemonic, and the words it stands for, `word &&& mask = pattern` (R81). -/
structure OpcodeRow where
  mnemonic : String
  mask     : Word
  pattern  : Word
  deriving DecidableEq, Repr

/-- The opcode table, row for row and in its order (R81). -/
def opcodeTable : List OpcodeRow :=
  [⟨"BR", 0xF000#16, 0x0000#16⟩, ⟨"ADD", 0xF020#16, 0x1000#16⟩, ⟨"ADD", 0xF020#16, 0x1020#16⟩,
   ⟨"AND", 0xF020#16, 0x5000#16⟩, ⟨"AND", 0xF020#16, 0x5020#16⟩, ⟨"NOT", 0xF000#16, 0x9000#16⟩,
   ⟨"LD", 0xF000#16, 0x2000#16⟩, ⟨"LDI", 0xF000#16, 0xA000#16⟩, ⟨"LDR", 0xF000#16, 0x6000#16⟩,
   ⟨"LEA", 0xF000#16, 0xE000#16⟩, ⟨"ST", 0xF000#16, 0x3000#16⟩, ⟨"STI", 0xF000#16, 0xB000#16⟩,
   ⟨"STR", 0xF000#16, 0x7000#16⟩, ⟨"JMP", 0xF000#16, 0xC000#16⟩, ⟨"JSR", 0xF800#16, 0x4800#16⟩,
   ⟨"JSRR", 0xF800#16, 0x4000#16⟩, ⟨"TRAP", 0xF000#16, 0xF000#16⟩, ⟨"RTI", 0xF000#16, 0x8000#16⟩,
   ⟨"RESERVED", 0xF000#16, 0xD000#16⟩]

/-- The position in `opcodeTable` of an instruction's row. -/
def rowIndex : Instr → Nat
  | .br _ _ => 0
  | .addReg _ _ _ => 1
  | .addImm _ _ _ => 2
  | .andReg _ _ _ => 3
  | .andImm _ _ _ => 4
  | .not _ _ => 5
  | .ld _ _ => 6
  | .ldi _ _ => 7
  | .ldr _ _ _ => 8
  | .lea _ _ => 9
  | .st _ _ => 10
  | .sti _ _ => 11
  | .str _ _ _ => 12
  | .jmp _ => 13
  | .jsr _ => 14
  | .jsrr _ => 15
  | .trap _ => 16
  | .rti => 17
  | .reserved => 18

/-- Why a string of bits is no instruction: it is not exactly one cell (R70). No 16-bit word is refused (R81). -/
inductive DecodeError where
  /-- More bits than one 16-bit cell: no instruction spans two cells (R70). -/
  | longerThanOneCell (nbits : Nat)
  deriving DecidableEq, Repr

/-- The instruction in the low `nbits` bits of `w`, the bits above them zero (R70). -/
def decodeBits (nbits w : Nat) : Except DecodeError Instr :=
  if nbits ≤ 16 then .ok (decode (BitVec.ofNat 16 (w % 2 ^ nbits)))
  else .error (.longerThanOneCell nbits)

/-- The instruction the decoder reads from a word numbered as spec/opcode_table.json numbers it (bit 0 least
significant; one 16-bit cell, no byte order: R46, R70). -/
def decodeTableWord (nbits w : Nat) : Option Instr :=
  (decodeBits nbits w).toOption

end Sys2Proof
end

