-- ==== Sys2Proof/Config.lean ====
section
/-! DEFINITION. The parameters of this hardware whose origin is "source" in the table of spec/00_scope.md R3.
The parameters whose origin is "decision" are in Sys2Proof/Machine/Params.lean, where a repair may mend them.
There is no free value here: spec/93_implementation_defined.md section 1 lists no behaviour whose treatment is
"any value", and R7 says every operation is defined on every state and every argument. -/

namespace Sys2Proof.Config

/-- TRAP_TABLE_BASE: the trap vector table is cells 0x0000 to 0x00FF (R3, R41). -/
abbrev trapTableBase : Word := 0x0000#16

/-- INT_TABLE_BASE: the interrupt vector table is cells 0x0100 to 0x01FF (R3, R41). -/
abbrev intTableBase : Word := 0x0100#16

/-- EXC_CODE_PRIVILEGE: vector code of the privilege violation (R3, R171). -/
abbrev excPrivilege : BitVec 8 := 0#8

/-- EXC_CODE_ILLEGAL: vector code of the illegal opcode (R3, R171). -/
abbrev excIllegal : BitVec 8 := 1#8

/-- KBSR: keyboard-ready status (R42). -/
abbrev kbsrAddr : Word := 0xFE00#16

/-- KBDR: keyboard data; reading it clears the keyboard latch (R42). -/
abbrev kbdrAddr : Word := 0xFE02#16

/-- DSR: display-ready status (R42). -/
abbrev dsrAddr : Word := 0xFE04#16

/-- DDR: display data; writing it arms the display latch (R42). -/
abbrev ddrAddr : Word := 0xFE06#16

/-- MCR: machine run/halt control register, polled at the end of every CLOCK (R42, R55). -/
abbrev mcrAddr : Word := 0xFFFE#16

/-- x[6], the stack pointer of the context-save sequence and of RTI (R11). -/
abbrev stackPointer : Reg := 6#3

/-- x[7], the link register of JSR, JSRR and TRAP (R11). -/
abbrev linkRegister : Reg := 7#3

end Sys2Proof.Config
end

