-- ==== Sys2Proof/Machine/Params.lean ====
section
/-! DEFINITION. The parameters whose origin is "decision" in the table of spec/00_scope.md R3: values the SPEC chose where
its source is silent (92_eei_decisions.md). The model takes the spec's values under the spec's names. -/

namespace Sys2Proof.Machine.Params

open Sys2Proof

/-- KBSR_READY_VALUE (R49, decision D5; log entry 3). -/
def kbsrReadyValue : Word := 0x8000#16
/-- KBSR_IDLE_VALUE (R49, decision D5; log entry 3). -/
def kbsrIdleValue : Word := 0x0000#16
/-- DSR_READY_VALUE (R51, decision D6; log entry 3). -/
def dsrReadyValue : Word := 0x8000#16
/-- MCR_RUN_BIT as a mask: bit 15 (R55, decision D7; log entry 4). -/
def mcrRunMask : Word := 0x8000#16
/-- RESET_PC (R37, decision D2; log entry 1). -/
def resetPc : Word := 0x0000#16
/-- RESET_PSR: supervisor, priority 0, no flag set (R37, decision D2; log entry 1). -/
def resetPsr : Word := 0x0000#16
/-- RESET_X, every general register (R37, decision D2; log entry 1). -/
def resetX : Word := 0x0000#16
/-- RESET_USP (R37, decision D2; log entry 1). -/
def resetUsp : Word := 0x0000#16
/-- RESET_SSP (R37, decision D2; log entry 1). -/
def resetSsp : Word := 0x0000#16
/-- RESET_IE: interrupts disabled (R37, decision D3; log entry 1). -/
def resetIe : Bool := false
/-- What every memory cell holds at RESET: 0x0000 (R27, R37: "zero-initialized", the source's own words). It is also
what an address that memory does not list reads as. -/
def unlistedCell : Word := 0x0000#16

end Sys2Proof.Machine.Params
end

