-- ==== Sys2Proof/Machine/State.lean ====
section
/-! DEFINITION. The state of the machine (spec/10_state.md, the list at its head: "Nothing else is state"), the reasons a
step could stop, and the state after RESET (R37, R210). -/

namespace Sys2Proof.Machine

open Sys2Proof

/-- One memory cell: its address and the 16-bit word it holds. The machine has no bytes, and R46 says that a model
"must not split them into bytes", so the unit is the word and not the host's byte (log entry 10). -/
abbrev Cell := Nat × Word

/-- Memory: the cells that differ from their reset value, at strictly rising addresses below 65536 (`Memory.wf`). -/
abbrev Memory := List Cell

/-- The whole state of the machine, field for field as spec/10_state.md lists it. -/
structure State where
  /-- x[0] to x[7], the general registers (R10). -/
  x : Vector Word 8
  /-- The program counter: the next-instruction address (R13). -/
  pc : Word
  /-- The process status register: bit 15 privilege, bits 10:8 priority, bits 2:0 flags N, Z, P (R16). -/
  psr : Word
  /-- Shadow stack pointer: the interrupted context's x[6] (R21). -/
  savedUsp : Word
  /-- Shadow stack pointer: the supervisor stack pointer (R21). -/
  savedSsp : Word
  /-- Interrupt enable (R23). -/
  ie : Bool
  /-- Run/halt state: true is halted (R24). -/
  halted : Bool
  /-- The keyboard latch (R25). -/
  keyboardReady : Bool
  /-- The display latch holds a word not yet reported (R26). -/
  displayValid : Bool
  /-- The word captured by the display latch; meaningful when `displayValid` (R26). -/
  displayValue : Word
  /-- M[0] to M[65535] (R27), in canonical form. -/
  mem : Memory
  deriving DecidableEq, Repr

/-- Why the machine could stop with a fault: never. R7: "There are no fatal/unrecoverable error states in this core";
spec/93_implementation_defined.md section 1: no behaviour "that a model must treat as `fault`". An illegal opcode and a
privilege violation are architectural exceptions, that is NEXT states (R171). The type has no constructor, so no one
raises it, and it is safe and exact. -/
inductive Fault
  deriving DecidableEq, Repr

/-- Why an instruction could have no meaning in this model. -/
inductive Refusal where
  /-- An instruction whose meaning is not written yet. Raised by an arm of `exec` only, and by none of them now: every
  instruction of the table has its meaning. Safe: the model would stop where the hardware goes on. -/
  | notModelled (mnemonic : String)
  deriving DecidableEq, Repr

/-- The machine right after RESET (R37, R210). `halted` and memory are the source's values; the other values are the
spec's decisions D2 to D4 (log entry 1). -/
def State.reset : State where
  x := Vector.replicate 8 Params.resetX
  pc := Params.resetPc
  psr := Params.resetPsr
  savedUsp := Params.resetUsp
  savedSsp := Params.resetSsp
  ie := Params.resetIe
  halted := true
  keyboardReady := false
  displayValid := false
  displayValue := 0
  mem := []

end Sys2Proof.Machine
end

