-- ==== Sys2Proof/Machine/Updates.lean ====
section
/-! DEFINITION. The accessors of State: every read and write of a register, a latch or a raw memory cell goes through one
of these, and every record update of the model is one of them. -/

namespace Sys2Proof.Machine

open Sys2Proof

/-- Read x[i] (R10): no register is hard-wired. -/
def State.reg (s : State) (i : Reg) : Word := s.x[i.toNat]'i.isLt

/-- x[i] <- v (R10). -/
def State.setReg (s : State) (i : Reg) (v : Word) : State := { s with x := s.x.set i.toNat v i.isLt }

/-- pc <- v (R13). -/
def State.setPc (s : State) (v : Word) : State := { s with pc := v }

/-- psr <- v, all 16 bits (R16, R20). -/
def State.setPsr (s : State) (v : Word) : State := { s with psr := v }

/-- saved_usp <- v (R21). -/
def State.setSavedUsp (s : State) (v : Word) : State := { s with savedUsp := v }

/-- saved_ssp <- v (R21). -/
def State.setSavedSsp (s : State) (v : Word) : State := { s with savedSsp := v }

/-- ie <- b (R23). -/
def State.setIe (s : State) (b : Bool) : State := { s with ie := b }

/-- halted <- b (R24). -/
def State.setHalted (s : State) (b : Bool) : State := { s with halted := b }

/-- keyboard_ready <- b (R25). -/
def State.setKeyboardReady (s : State) (b : Bool) : State := { s with keyboardReady := b }

/-- display_valid <- 1; display_value <- v (R26). -/
def State.latchDisplay (s : State) (v : Word) : State := { s with displayValid := true, displayValue := v }

/-- display_valid <- 0 (R94). -/
def State.clearDisplay (s : State) : State := { s with displayValid := false }

/-- Replace the memory. -/
def State.setMem (s : State) (m : Memory) : State := { s with mem := m }

/-- The register a code of any width names: the code is masked to 3 bits, never out of range (R12). -/
def regOfCode (code : Nat) : Reg := BitVec.ofNat 3 code

end Sys2Proof.Machine
end

