-- ==== Sys2Proof/Machine/Flags.lean ====
section
/-! DEFINITION. The fields of psr and the condition flags (spec/10_state.md R16 to R20). -/

namespace Sys2Proof.Machine

open Sys2Proof

/-- The two privilege modes (R195). -/
inductive Mode where
  | supervisor
  | user
  deriving DecidableEq, Repr

/-- PRIV, psr[15]: 0 is supervisor, 1 is user (R16). -/
def psrMode (psr : Word) : Mode := bif psr.getLsbD 15 then .user else .supervisor

/-- PRIORITY, psr[10:8] (R16). -/
def psrPriority (psr : Word) : BitVec 3 := psr.extractLsb' 8 3

/-- The flags, psr[2:0]: N is bit 2, Z is bit 1, P is bit 0 (R16, R17; the order is decision D12, log entry 5). -/
def psrFlags (psr : Word) : BitVec 3 := psr.extractLsb' 0 3

/-- psr[15] <- 0, the other bits kept (R173, R180). -/
def psrToSupervisor (psr : Word) : Word := psr &&& 0x7FFF#16

/-- psr[10:8] <- pri, the other bits kept (R180 step 5). -/
def psrWithPriority (psr : Word) (pri : BitVec 3) : Word := psr &&& 0xF8FF#16 ||| pri.setWidth 16 <<< 8

/-- psr[2:0] <- f, the other bits kept (R19). -/
def psrWithFlags (psr : Word) (f : BitVec 3) : Word := psr &&& 0xFFF8#16 ||| f.setWidth 16

/-- The flag pattern of a result: N if bit 15 is 1, else Z if it is zero, else P (R19). -/
def conditionOf (v : Word) : BitVec 3 :=
  if v.getLsbD 15 then 0b100#3 else if v = 0x0000#16 then 0b010#3 else 0b001#3

/-- `setcc(v)`: psr[2:0] is set from the result, psr[15:3] is kept (R19). -/
def State.setcc (s : State) (v : Word) : State := s.setPsr (psrWithFlags s.psr (conditionOf v))

/-- The mode the machine is in (R195). -/
def State.mode (s : State) : Mode := psrMode s.psr

/-- The current priority level (R16). -/
def State.priority (s : State) : BitVec 3 := psrPriority s.psr

/-- The current flags (R16). -/
def State.flags (s : State) : BitVec 3 := psrFlags s.psr

end Sys2Proof.Machine
end

