-- ==== Sys2Proof/Machine/Operands.lean ====
section
/-! DEFINITION. Every operand form and addressing mode of the instruction set (spec/30_encoding.md R74, R75;
spec/42_data_movement.md R121). `pc` is the incremented pc (R14). All sums are modulo 65536. -/

namespace Sys2Proof.Machine

open Sys2Proof

/-- `sext_N`: bit N-1 of an N-bit field is copied into bits 15 down to N (R8, R74). -/
def sext {n : Nat} (v : BitVec n) : Word := v.signExtend 16

/-- `zext_N`: the other bits are 0 (R8, R74). -/
def zext {n : Nat} (v : BitVec n) : Word := v.setWidth 16

/-- `pc + sext_9(IR[8:0])`: BR, LD, LDI, LEA, ST, STI (R75, R121). -/
def pcRelative9 (off : BitVec 9) (s : State) : Word := s.pc + sext off

/-- `pc + sext_11(IR[10:0])`: JSR (R75). -/
def pcRelative11 (off : BitVec 11) (s : State) : Word := s.pc + sext off

/-- `x[BaseR] + sext_6(IR[5:0])`: LDR, STR (R75, R121). -/
def baseOffset6 (base : Reg) (off : BitVec 6) (s : State) : Word := s.reg base + sext off

/-- The trap vector cell `zext_8(trapvect8)`, in the table at 0x0000 (R74, R147). -/
def trapVectorCell (vect : BitVec 8) : Word := Config.trapTableBase + zext vect

/-- The interrupt vector cell `0x0100 + zext_8(code)`, for exceptions and interrupts (R173, R180). -/
def intVectorCell (code : BitVec 8) : Word := Config.intTableBase + zext code

end Sys2Proof.Machine
end

