-- ==== Sys2Proof/Machine/Ops.lean ====
section
/-! DEFINITION. The operations over memory and registers that the instructions share: the cells of memory in canonical form,
MemRead and MemWrite with their device registers (spec/20_memory.md R43 to R56), the stack (R175), taking an exception
(R172, R173) and returning from one (R160). None of them can fail (R43). -/

namespace Sys2Proof.Machine

open Sys2Proof

/-! ### The cells of memory -/

/-- The word memory holds at an address; an address that is not listed holds the reset value (R27, R37). -/
def Memory.read : Memory → Nat → Word
  | [], _ => Params.unlistedCell
  | (k, v) :: m, a => if k = a then v else Memory.read m a

/-- Put a cell before the first cell of a higher address. -/
def Memory.insert (a : Nat) (v : Word) : Memory → Memory
  | [] => [(a, v)]
  | (k, u) :: m => if a < k then (a, v) :: (k, u) :: m else (k, u) :: Memory.insert a v m

/-- Write a word at an address. Writing the reset value removes the entry, so that equal memories are equal lists. -/
def Memory.write (m : Memory) (a : Nat) (v : Word) : Memory :=
  let rest := m.filter fun c => c.1 != a
  if v = Params.unlistedCell then rest else Memory.insert a v rest

/-- The canonical form: addresses strictly rising and below 65536, and no entry equal to what an unlisted address
reads as. -/
abbrev Memory.wf (m : Memory) : Prop :=
  m.Pairwise (fun c d => c.1 < d.1) ∧ ∀ c ∈ m, c.1 < 65536 ∧ c.2 ≠ Params.unlistedCell

/-- M[a], the cell itself, with no device behaviour (R27). -/
def State.cell (s : State) (a : Word) : Word := Memory.read s.mem a.toNat

/-- M[a] <- v, the cell itself, with no device behaviour (R27). -/
def State.setCell (s : State) (a : Word) (v : Word) : State := s.setMem (Memory.write s.mem a.toNat v)

/-! ### MemRead and MemWrite -/

/-- The value `MemRead(a, 1)` returns: KBSR is computed from the keyboard latch (R49), DSR is always ready (R51), every
other address gives its cell, KBDR among them (R44, R50). -/
def memReadValue (a : Word) (s : State) : Word :=
  if a = Config.kbsrAddr then (bif s.keyboardReady then Params.kbsrReadyValue else Params.kbsrIdleValue)
  else if a = Config.dsrAddr then Params.dsrReadyValue
  else s.cell a

/-- What `MemRead(a, 1)` does to the state: a read of KBDR clears the keyboard latch, whoever reads (R44, R50). -/
def memReadEffect (a : Word) (s : State) : State :=
  if a = Config.kbdrAddr then s.setKeyboardReady false else s

/-- `MemWrite(a, 1, v)`: the cell is written at every address; a write to DDR also arms the display latch (R45, R52). -/
def memWrite (a v : Word) (s : State) : State :=
  let t := s.setCell a v
  if a = Config.ddrAddr then t.latchDisplay v else t

/-! ### The stack -/

/-- `push(v)`: x[6] <- x[6] - 1, then store at x[6] (R175). -/
def push (v : Word) (s : State) : State :=
  let t := s.setReg Config.stackPointer (s.reg Config.stackPointer - 1)
  memWrite (t.reg Config.stackPointer) v t

/-- The word `pop()` returns: the one at x[6] (R175). -/
def popValue (s : State) : Word := memReadValue (s.reg Config.stackPointer) s

/-- What `pop()` does to the state: the read's side effect, then x[6] <- x[6] + 1 (R175; the increment is decision D25). -/
def popEffect (s : State) : State :=
  let t := memReadEffect (s.reg Config.stackPointer) s
  t.setReg Config.stackPointer (t.reg Config.stackPointer + 1)

/-! ### Taking an exception, and returning from one -/

/-- The context-save sequence of exceptions and interrupts, in whatever mode: x[6] is kept in saved_usp and loaded from
saved_ssp, then psr and pc are pushed (R172; unconditional by decision D15, log entry 6). -/
def contextSave (s : State) : State :=
  let t := (s.setSavedUsp (s.reg Config.stackPointer)).setReg Config.stackPointer s.savedSsp
  push t.pc (push t.psr t)

/-- pc <- MemRead(a, 1): the handler's address is the content of the vector cell (R147, R173, R176, R180). -/
def jumpThrough (a : Word) (s : State) : State :=
  (memReadEffect a s).setPc (memReadValue a s)

/-- Taking the internal exception of code c: context save, supervisor mode with priority and flags kept, pc from the
vector cell 0x0100 + c; not gated by ie or by the priority (R173). -/
def exceptionEntry (code : BitVec 8) (s : State) : State :=
  let t := contextSave s
  jumpThrough (intVectorCell code) (t.setPsr (psrToSupervisor t.psr))

/-- Returning from an exception or interrupt in supervisor mode: pop pc, pop all of psr, keep x[6] in saved_ssp, load x[6]
from saved_usp (R160; the last two by decision D16, log entry 6). -/
def exceptionReturn (s : State) : State :=
  let s1 := (popEffect s).setPc (popValue s)
  let s2 := (popEffect s1).setPsr (popValue s1)
  let s3 := s2.setSavedSsp (s2.reg Config.stackPointer)
  s3.setReg Config.stackPointer s3.savedUsp

/-! ### What several instructions do with a result or an address -/

/-- Write a result to its destination register and set the flags from it (R19). -/
def writeResult (dr : Reg) (v : Word) (s : State) : State := (s.setReg dr v).setcc v

/-- Load the cell at an address into a register: MemRead, then the register and the flags (R120, R123, R124). -/
def loadFrom (dr : Reg) (a : Word) (s : State) : State :=
  writeResult dr (memReadValue a s) (memReadEffect a s)

/-- x[7] <- pc: the return address, which is the incremented pc (R142). -/
def link (s : State) : State := s.setReg Config.linkRegister s.pc

end Sys2Proof.Machine
end

