-- ==== Sys2Proof/Machine/Control.lean ====
section
/-! DEFINITION. The control instructions BR, JMP (RET), JSR, JSRR, TRAP (spec/43_control.md). They leave the flags alone and
raise no exception; there are no delay slots (R141). -/

namespace Sys2Proof.Machine

open Sys2Proof

/-- BR: taken when a requested condition is among the set flags, by the bitwise AND of IR[11:9] and psr[2:0] (R140;
decision D27, log entry 5). -/
def execBr (nzp : BitVec 3) (off : BitVec 9) (s : State) : Host.Outcome State Fault Refusal :=
  if nzp &&& s.flags ≠ 0b000#3 then .next (s.setPc (pcRelative9 off s)) else .next s

/-- JMP; RET is JMP R7 (R143). -/
def execJmp (baseR : Reg) (s : State) : Host.Outcome State Fault Refusal :=
  .next (s.setPc (s.reg baseR))

/-- JSR: the link value and the base of the sum are the same incremented pc (R144). -/
def execJsr (off : BitVec 11) (s : State) : Host.Outcome State Fault Refusal :=
  .next ((link s).setPc (pcRelative11 off s))

/-- JSRR: the link register is written first, then the base register is read, so JSRR R7 falls through (R145;
JSRR_ORDER `link_then_read`, decision D17, log entry 7). -/
def execJsrr (baseR : Reg) (s : State) : Host.Outcome State Fault Refusal :=
  let t := link s
  .next (t.setPc (t.reg baseR))

/-- TRAP: a call through the trap vector table; psr, x[6] and the shadow registers are untouched (R147). -/
def execTrap (vect : BitVec 8) (s : State) : Host.Outcome State Fault Refusal :=
  .next (jumpThrough (trapVectorCell vect) (link s))

end Sys2Proof.Machine
end

