-- ==== Sys2Proof/Machine/DataMovement.lean ====
section
/-! DEFINITION. The data movement instructions LD, LDI, LDR, LEA, ST, STI, STR (spec/42_data_movement.md). No address is
invalid and none of them raises an exception (R122). -/

namespace Sys2Proof.Machine

open Sys2Proof

/-- LD (R120). -/
def execLd (dr : Reg) (off : BitVec 9) (s : State) : Host.Outcome State Fault Refusal :=
  .next (loadFrom dr (pcRelative9 off s) s)

/-- LDI: read the pointer, then the datum it points to, each with MemRead's side effect (R123). -/
def execLdi (dr : Reg) (off : BitVec 9) (s : State) : Host.Outcome State Fault Refusal :=
  let pa := pcRelative9 off s
  .next (loadFrom dr (memReadValue pa s) (memReadEffect pa s))

/-- LDR (R124). -/
def execLdr (dr baseR : Reg) (off : BitVec 6) (s : State) : Host.Outcome State Fault Refusal :=
  .next (loadFrom dr (baseOffset6 baseR off s) s)

/-- LEA: the address itself, no memory access; it sets the flags (R125). -/
def execLea (dr : Reg) (off : BitVec 9) (s : State) : Host.Outcome State Fault Refusal :=
  .next (writeResult dr (pcRelative9 off s) s)

/-- ST (R130). -/
def execSt (sr : Reg) (off : BitVec 9) (s : State) : Host.Outcome State Fault Refusal :=
  .next (memWrite (pcRelative9 off s) (s.reg sr) s)

/-- STI: read the pointer with MemRead's side effect, then store the register where it points (R132). -/
def execSti (sr : Reg) (off : BitVec 9) (s : State) : Host.Outcome State Fault Refusal :=
  let pa := pcRelative9 off s
  .next (memWrite (memReadValue pa s) (s.reg sr) (memReadEffect pa s))

/-- STR (R133). -/
def execStr (sr baseR : Reg) (off : BitVec 6) (s : State) : Host.Outcome State Fault Refusal :=
  .next (memWrite (baseOffset6 baseR off s) (s.reg sr) s)

end Sys2Proof.Machine
end

