-- ==== Sys2Proof/Machine/System.lean ====
section
/-! DEFINITION. The system instructions: RTI and the illegal opcode 1101 (spec/44_system.md). -/

namespace Sys2Proof.Machine

open Sys2Proof

/-- RTI: in user mode it takes the privilege violation (code 0) and pops nothing; in supervisor mode it returns. The mode
is the one before the pops (R160, R161). -/
def execRti (s : State) : Host.Outcome State Fault Refusal :=
  match s.mode with
  | .user => .next (exceptionEntry Config.excPrivilege s)
  | .supervisor => .next (exceptionReturn s)

/-- Opcode 1101: in either mode it takes the illegal-opcode exception (code 1) (R162). -/
def execReserved (s : State) : Host.Outcome State Fault Refusal :=
  .next (exceptionEntry Config.excIllegal s)

end Sys2Proof.Machine
end

