-- ==== Sys2Proof/Machine/Cycle.lean ====
section
/-! DEFINITION. The cycle driver: START, the fetch, the poll and CLOCK (spec/40_cycle_driver.md R90 to R100). -/

namespace Sys2Proof.Machine

open Sys2Proof

/-- The event one CLOCK returns to its caller. It is no state (R31). -/
inductive Event where
  /-- Nothing to report. -/
  | none
  /-- A produced display character: the full 16-bit word written to DDR (R52, R94). -/
  | char (v : Word)
  /-- A halt notification (R95). -/
  | halt
  deriving DecidableEq, Repr

/-- START: running, with the MCR run bit set and bits 14:0 kept; nothing else changes (R91, decision D8, log entry 4). -/
def start (s : State) : State :=
  (s.setHalted false).setCell Config.mcrAddr (s.cell Config.mcrAddr ||| Params.mcrRunMask)

/-- The instruction word: MemRead at the pc before the increment (R92). -/
def fetchWord (s : State) : Word := memReadValue s.pc s

/-- What the fetch does to the state: the read's side effect, then pc <- pc + 1 (R63, R92). -/
def fetchEffect (s : State) : State :=
  let t := memReadEffect s.pc s
  t.setPc (t.pc + 1)

/-- Phase 1 of a CLOCK of a running core: one whole instruction, with the exception it may raise (R90, R92, R99). -/
def runInstruction (s : State) : Host.Outcome State Fault Refusal :=
  exec (decode (fetchWord s)) (fetchEffect s)

/-- The run bit of MCR, read from the cell itself (R55). -/
def runBit (s : State) : Bool := s.cell Config.mcrAddr &&& Params.mcrRunMask != 0x0000#16

/-- Phase 2 of a CLOCK: a pending character first, then the level of the run bit (R93 to R96; decisions D9 and D10, log
entry 4). -/
def poll (s : State) : State × Event :=
  if s.displayValid then (s.clearDisplay, .char s.displayValue)
  else if runBit s then (s, .none)
  else (s.setHalted true, .halt)

/-- CLOCK: one instruction if the core is not halted, then the poll in any case (R92). -/
def clock (s : State) : Host.Outcome (State × Event) Fault Refusal :=
  match (if s.halted then .next s else runInstruction s) with
  | .next t => .next (poll t)
  | .fault f => .fault f
  | .refused r => .refused r

/-- The state part of CLOCK. -/
def clockState (s : State) : Host.Outcome State Fault Refusal :=
  match clock s with
  | .next p => .next p.1
  | .fault f => .fault f
  | .refused r => .refused r

/-- True of the two addresses whose MemRead does not return the cell (KBSR, DSR): no instruction can be placed there. -/
def readMapped (a : Word) : Bool := a == Config.kbsrAddr || a == Config.dsrAddr

/-- What it takes for the next CLOCK to execute the word `w`: the host's boot sequence (R212) cut down to one instruction.
A halted core is started (START); a pc at KBSR or DSR, where a fetch never sees the cell, is moved on by one; `w` is
placed in the cell at pc (log entry 11). -/
def placeInstruction (w : Word) (s : State) : State :=
  let t := if s.halted then start s else s
  let u := if readMapped t.pc then t.setPc (t.pc + 1) else t
  u.setCell u.pc w

end Sys2Proof.Machine
end

