-- ==== Sys2Proof/Machine/Step.lean ====
section
/-! DEFINITION. One step of the machine is one CLOCK (spec/40_cycle_driver.md R90, R92); its event is not state (R31). -/

namespace Sys2Proof.Machine

open Sys2Proof

/-- One step: the state part of CLOCK. A halted core executes nothing and still polls (R97). -/
def step (s : State) : Host.Outcome State Fault Refusal := clockState s

/-- `s` with the instruction word `w` placed so that the next step executes it (see `placeInstruction`). -/
def State.withFetchWord (s : State) (nbits w : Nat) : State :=
  placeInstruction (BitVec.ofNat 16 (w % 2 ^ nbits)) s

end Sys2Proof.Machine
end

