-- ==== Sys2Proof/Machine/Interrupt.lean ====
section
/-! DEFINITION. The external interrupt request, the INTERRUPT operation of the host (spec/60_exceptions.md R180 to R184). It is
no CLOCK: it executes no instruction, runs no poll and is not gated by `halted` (R184). -/

namespace Sys2Proof.Machine

open Sys2Proof

/-- Why a request is rejected (R180 steps 1 and 2). -/
inductive Rejection where
  /-- The interrupt-enable flag is not set. -/
  | disabled
  /-- The requested priority does not strictly exceed the current one. -/
  | priorityTooLow
  deriving DecidableEq, Repr

/-- What INTERRUPT returns (R180). -/
inductive InterruptResult where
  /-- Serviced, at this priority. -/
  | serviced (pri : BitVec 3)
  /-- Rejected; no state has changed and nothing is kept pending (R32, R182). -/
  | rejected (why : Rejection)
  deriving DecidableEq, Repr

/-- Steps 3 to 5 of R180: the key is delivered (whatever the vector), the context is saved, then the priority is raised
and the mode becomes supervisor (decision D14, log entry 8), and pc comes from the vector cell. -/
def interruptEntry (vec : BitVec 8) (pri : BitVec 3) (data : Word) (s : State) : State :=
  let t := contextSave ((memWrite Config.kbdrAddr data s).setKeyboardReady true)
  jumpThrough (intVectorCell vec) (t.setPsr (psrToSupervisor (psrWithPriority t.psr pri)))

/-- INTERRUPT(vec, pri, data): ie is tested first, then the priorities, by a strict unsigned comparison (R180, R35). -/
def interrupt (vec : BitVec 8) (pri : BitVec 3) (data : Word) (s : State) : State × InterruptResult :=
  if s.ie = false then (s, .rejected .disabled)
  else if pri.toNat ≤ s.priority.toNat then (s, .rejected .priorityTooLow)
  else (interruptEntry vec pri data s, .serviced pri)

end Sys2Proof.Machine
end

