-- ==== Sys2Proof/Machine/HostOps.lean ====
section
/-! DEFINITION. The interface of the block: the atomic operations of spec/00_scope.md R5, each total (R7) and allowed in any
state (R6). -/

namespace Sys2Proof.Machine

open Sys2Proof

/-- The registers HOST_REG_WRITE reaches (R36). `halted` and the latches are not among them. -/
inductive HostReg where
  /-- x[code], the code masked to 3 bits (R12). -/
  | x (code : Nat)
  | pc
  | psr
  | savedUsp
  | savedSsp
  | ie
  deriving DecidableEq, Repr

/-- The registers HOST_REG_READ reaches: those, and `halted` (R36). -/
inductive HostReadable where
  | reg (r : HostReg)
  | halted
  deriving DecidableEq, Repr

/-- The operations of R5 with their arguments. -/
inductive Operation where
  | reset
  | start
  | clock
  | interrupt (vec : BitVec 8) (pri : BitVec 3) (data : Word)
  | hostMemRead (addr : Word)
  | hostMemWrite (addr v : Word)
  | hostRegRead (r : HostReadable)
  | hostRegWrite (r : HostReg) (v : Word)
  deriving DecidableEq, Repr

/-- What an operation returns (R5). -/
inductive Result where
  | done
  | event (e : Event)
  | interrupt (r : InterruptResult)
  | value (v : Word)
  deriving DecidableEq, Repr

/-- A one-bit register as the host reads it: 1 or 0. -/
def bitWord (b : Bool) : Word := bif b then 1#16 else 0#16

/-- The value of a register the host can write (R36): its full width, no side effect. -/
def hostRegValue (r : HostReg) (s : State) : Word :=
  match r with
  | .x code => s.reg (regOfCode code)
  | .pc => s.pc
  | .psr => s.psr
  | .savedUsp => s.savedUsp
  | .savedSsp => s.savedSsp
  | .ie => bitWord s.ie

/-- HOST_REG_READ (R36). -/
def hostRegRead (r : HostReadable) (s : State) : Word :=
  match r with
  | .reg r => hostRegValue r s
  | .halted => bitWord s.halted

/-- HOST_REG_WRITE: the full width, no side effect, no check (R36); any nonzero value makes ie 1 (R23). -/
def hostRegWrite (r : HostReg) (v : Word) (s : State) : State :=
  match r with
  | .x code => s.setReg (regOfCode code) v
  | .pc => s.setPc v
  | .psr => s.setPsr v
  | .savedUsp => s.setSavedUsp v
  | .savedSsp => s.setSavedSsp v
  | .ie => s.setIe (v != 0#16)

/-- Invoke one operation (R5): the state it leaves and what it returns. Host reads and writes of memory are MemRead and
MemWrite, side effects included (R60, decision D18). -/
def perform (op : Operation) (s : State) : Host.Outcome (State × Result) Fault Refusal :=
  match op with
  | .reset => .next (State.reset, .done)
  | .start => .next (Machine.start s, .done)
  | .clock =>
    match Machine.clock s with
    | .next (t, e) => .next (t, .event e)
    | .fault f => .fault f
    | .refused r => .refused r
  | .interrupt vec pri data =>
    let p := Machine.interrupt vec pri data s
    .next (p.1, .interrupt p.2)
  | .hostMemRead addr => .next (memReadEffect addr s, .value (memReadValue addr s))
  | .hostMemWrite addr v => .next (memWrite addr v s, .done)
  | .hostRegRead r => .next (s, .value (Machine.hostRegRead r s))
  | .hostRegWrite r v => .next (Machine.hostRegWrite r v s, .done)

end Sys2Proof.Machine
end

