-- ==== Sys2Proof/Safety.lean ====
section
/-! DEFINITION. What counts as a safe run, and the words the claims are written in: the invariant, the runs of the machine
under its host, and how an instruction's effect on each kind of state is described. -/

namespace Sys2Proof.Machine

open Sys2Proof

/-! ### Safe runs -/

/-- The invariant of the machine: memory is in canonical form, so that equal memories are equal data. No other field is
constrained: every value of every register is legal (R13, R20). -/
def MachineInv (s : State) : Prop := Memory.wf s.mem

/-- The machine can go on: its next CLOCK ends in a state, not in a fault or a refusal (R7). -/
def StepsSafely (s : State) : Prop := ∃ t, step s = .next t

/-- The states the host can bring about: RESET, then any operations of R5 in any order (R6). -/
inductive Reachable : State → Prop where
  | reset : Reachable State.reset
  | perform {s t : State} {op : Operation} {r : Result} : Reachable s → perform op s = .next (t, r) → Reachable t

/-! ### How claims describe an effect -/

/-- The psr `new` is `old` with the flags of the result `v`: bits 15:3 are kept, and N, Z, P say whether `v`, read as a
signed number, is negative, zero or positive (R19). -/
def FlagsSetBy (v old new : Word) : Prop :=
  (∀ k, 3 ≤ k → k < 16 → new.getLsbD k = old.getLsbD k) ∧
    (new.getLsbD 2 = true ↔ v.toInt < 0) ∧ (new.getLsbD 1 = true ↔ v.toInt = 0) ∧ (new.getLsbD 0 = true ↔ 0 < v.toInt)

/-- No general register but those of `written` differs. -/
def RegsKeptExcept (written : List Reg) (s t : State) : Prop := ∀ i, i ∉ written → t.reg i = s.reg i

/-- Every cell of memory reads the same. -/
def MemoryKept (s t : State) : Prop := ∀ a : Word, t.cell a = s.cell a

/-- Every cell of memory reads the same, but the cell at `ea`, which holds `v`. -/
def StoredAt (ea v : Word) (s t : State) : Prop := t.cell ea = v ∧ ∀ a : Word, a ≠ ea → t.cell a = s.cell a

/-- The registers that save and control exceptions, the interrupt enable and the run/halt state are unchanged. -/
def SpecialsKept (s t : State) : Prop :=
  t.savedUsp = s.savedUsp ∧ t.savedSsp = s.savedSsp ∧ t.ie = s.ie ∧ t.halted = s.halted

/-- The display latch is unchanged. -/
def DisplayKept (s t : State) : Prop := t.displayValid = s.displayValid ∧ t.displayValue = s.displayValue

/-- The display latch after a MemWrite of `v` at `ea`: armed with `v` when `ea` is DDR, else unchanged (R45, R52). -/
def DisplayAfterWrite (ea v : Word) (s t : State) : Prop :=
  if ea = 0xFE06#16 then t.displayValid = true ∧ t.displayValue = v else DisplayKept s t

/-- The keyboard latch after MemReads of the addresses `reads`: cleared when KBDR is among them, else unchanged (R50). -/
def KeyboardAfterReads (reads : List Word) (s t : State) : Prop :=
  t.keyboardReady = if 0xFE02#16 ∈ reads then false else s.keyboardReady

/-- The keyboard latch is unchanged. -/
def KeyboardKept (s t : State) : Prop := t.keyboardReady = s.keyboardReady

/-- The register a result-producing instruction writes: ADD, AND, NOT, LD, LDI, LDR, LEA, the instructions after which
setcc happens (R19). -/
def resultRegister : Instr → Option Reg
  | .addReg dr _ _ | .addImm dr _ _ | .andReg dr _ _ | .andImm dr _ _ | .not dr _ => some dr
  | .ld dr _ | .ldi dr _ | .ldr dr _ _ | .lea dr _ => some dr
  | .br _ _ | .st _ _ | .sti _ _ | .str _ _ _ | .jmp _ | .jsr _ | .jsrr _ | .trap _ | .rti | .reserved => none

/-- The general registers an instruction may write: its result register; x[7] for the instructions that link (R142); x[6]
for RTI and for an exception entry (R160, R172). -/
def writtenRegisters : Instr → List Reg
  | .addReg dr _ _ | .addImm dr _ _ | .andReg dr _ _ | .andImm dr _ _ | .not dr _ => [dr]
  | .ld dr _ | .ldi dr _ | .ldr dr _ _ | .lea dr _ => [dr]
  | .br _ _ | .st _ _ | .sti _ _ | .str _ _ _ | .jmp _ => []
  | .jsr _ | .jsrr _ | .trap _ => [7#3]
  | .rti | .reserved => [6#3]

/-- The display latch after the two pushes of a context save: a push that lands on DDR arms it (R172, R52). -/
def DisplayAfterPushes (s t : State) : Prop :=
  if s.savedSsp - 2 = 0xFE06#16 then t.displayValid = true ∧ t.displayValue = s.pc
  else if s.savedSsp - 1 = 0xFE06#16 then t.displayValid = true ∧ t.displayValue = s.psr
  else DisplayKept s t

/-- The state `t` after an internal exception entry with vector code `code` from `s` (R172, R173, R176): the old psr and pc
are on the stack at saved_ssp, the stack pointers are switched, the mode is supervisor with every other psr bit kept, pc is
the content of the vector cell after the pushes, and nothing else differs. -/
def ExceptionEntered (code : Word) (s t : State) : Prop :=
  t.savedUsp = s.reg 6#3 ∧ t.savedSsp = s.savedSsp ∧ t.reg 6#3 = s.savedSsp - 2 ∧ RegsKeptExcept [6#3] s t ∧
    t.cell (s.savedSsp - 1) = s.psr ∧ t.cell (s.savedSsp - 2) = s.pc ∧
    (∀ a : Word, a ≠ s.savedSsp - 1 → a ≠ s.savedSsp - 2 → t.cell a = s.cell a) ∧
    t.psr.getLsbD 15 = false ∧ (∀ k < 15, t.psr.getLsbD k = s.psr.getLsbD k) ∧
    t.pc = t.cell (0x0100#16 + code) ∧
    t.ie = s.ie ∧ t.halted = s.halted ∧ KeyboardKept s t ∧ DisplayAfterPushes s t

end Sys2Proof.Machine
end

