-- ==== Sys2Proof/Certificates/Slice0/Obligations.lean ====
section
/-! DEFINITION. The statements about the model, for the provers. A docstring names the rule of spec/ a statement formalises,
or, where it rests on a decision of the spec (92_eei_decisions.md) or of the model, the log entry that names it.
The decoding clause of an instruction's statement takes the opcode number and the places of the fields as that instruction's
rule prints them; the spec has them from general knowledge (decision D22, log entry 2). `FlagsSetBy` takes the bits of N, Z
and P as R19 prints them (decision D12, log entry 5). -/

open Sys2Proof Sys2Proof.Machine

/-! ### Reset and the invariant -/

/-- RESET leaves every piece of state at the value of the table in R37, from any state. The values of `halted` and of memory
are the source's; the others are the spec's decisions D2 to D4 (log entry 1). -/
def Obligations.ResetLeavesTheTableOfResetValues : Prop :=
  (∀ s, perform .reset s = .next (State.reset, .done)) ∧
    State.reset.halted = true ∧ (∀ a, State.reset.cell a = 0x0000#16) ∧
    (∀ i, State.reset.reg i = 0x0000#16) ∧ State.reset.pc = 0x0000#16 ∧ State.reset.psr = 0x0000#16 ∧
    State.reset.mode = .supervisor ∧ State.reset.priority = 0#3 ∧ State.reset.flags = 0b000#3 ∧
    State.reset.savedUsp = 0x0000#16 ∧ State.reset.savedSsp = 0x0000#16 ∧ State.reset.ie = false ∧
    State.reset.keyboardReady = false ∧ State.reset.displayValid = false ∧ State.reset.displayValue = 0x0000#16

/-- The invariant holds right after RESET. -/
def Obligations.ResetMeetsTheInvariant : Prop := MachineInv State.reset

/-- Every step from a state whose memory is in canonical form leaves it in canonical form (the form is the model's choice, log
entry 10). -/
def Obligations.EveryStepKeepsMemoryCanonical : Prop :=
  ∀ s t, MachineInv s → step s = .next t → MachineInv t

/-- Every operation of the interface, with every argument, keeps memory in canonical form: RESET, START, CLOCK, INTERRUPT and
the host's reads and writes (the form is the model's choice, log entry 10). -/
def Obligations.EveryOperationKeepsMemoryCanonical : Prop :=
  ∀ (op : Operation) (s t : State) (r : Result), MachineInv s → perform op s = .next (t, r) → MachineInv t

/-- Whatever operations the host invokes after RESET, in whatever order, memory is canonical (the form is the model's choice,
log entry 10) and the next CLOCK ends in a state: no fault and no refusal is ever reached (R7). -/
def Obligations.ReachableStatesAreSafe : Prop :=
  ∀ s, Reachable s → MachineInv s ∧ StepsSafely s

/-- In states that meet the invariant, memories that read the same at every address are the same data. -/
def Obligations.CanonicalMemoriesAreEqualData : Prop :=
  ∀ s t, MachineInv s → MachineInv t → (∀ a, s.cell a = t.cell a) → s.mem = t.mem

/-! ### Encoding -/

/-- Words written out bit by bit from the formats of R73 (opcode numbers: decision D22, log entry 2) decode to the
instructions they stand for: every family, and both modes of the opcodes that have a mode bit. -/
def Obligations.WordsWrittenFromTheFormatsDecode : Prop :=
  decode 0b0000_110_000000101#16 = .br 0b110#3 5#9 ∧
    decode 0b0001_001_010_0_00_011#16 = .addReg 1#3 2#3 3#3 ∧
    decode 0b0001_001_010_1_01111#16 = .addImm 1#3 2#3 15#5 ∧
    decode 0b0101_001_010_0_00_011#16 = .andReg 1#3 2#3 3#3 ∧
    decode 0b0101_001_001_1_00000#16 = .andImm 1#3 1#3 0#5 ∧
    decode 0b1001_011_010_111111#16 = .not 3#3 2#3 ∧
    decode 0b0110_001_010_110100#16 = .ldr 1#3 2#3 0b110100#6 ∧
    decode 0b1010_000_000000010#16 = .ldi 0#3 2#9 ∧
    decode 0b0111_001_110_111111#16 = .str 1#3 6#3 0b111111#6 ∧
    decode 0b1100_000_111_000000#16 = .jmp 7#3 ∧
    decode 0b0100_1_00000000010#16 = .jsr 2#11 ∧
    decode 0b0100_0_00_010_000000#16 = .jsrr 2#3 ∧
    decode 0b1111_0000_00100101#16 = .trap 0x25#8 ∧
    decode 0b1000_000000000000#16 = .rti ∧
    decode 0b1101_000000000000#16 = .reserved

/-- Decoding an encoded instruction gives it back, for every instruction and every value of every operand. -/
def Obligations.DecodeOfEncodeIsTheInstruction : Prop :=
  ∀ i : Instr, decode (encode i) = i

/-- Encoding a decoded word gives back every bit that its format uses, and the whole word exactly when its ignored bits hold
their conventional values (R73; log entry 9). -/
def Obligations.EncodeOfDecodeKeepsTheUsedBits : Prop :=
  ∀ w : Word, encode (decode w) &&& usedBits w = w &&& usedBits w ∧
    (encode (decode w) = w ↔ wellFormedWord w = true)

/-- Two words decode to the same instruction exactly when they agree on the bits that are not marked `-` in R73: every other
bit is ignored, and none of those is (R77, decision D19, log entry 9). -/
def Obligations.OnlyTheUsedBitsDecide : Prop :=
  ∀ v w : Word, decode v = decode w ↔ v &&& usedBits v = w &&& usedBits w

/-- Every word matches exactly one row of the opcode table, the row of the instruction it decodes to: that row exists and
matches, and no other row does (R81). -/
def Obligations.EveryWordMatchesOneTableRow : Prop :=
  ∀ w : Word, (∃ r, opcodeTable[rowIndex (decode w)]? = some r ∧ w &&& r.mask = r.pattern) ∧
    ∀ (k : Nat) (r : OpcodeRow), opcodeTable[k]? = some r → w &&& r.mask = r.pattern → k = rowIndex (decode w)

/-- A program's instruction runs: with a word placed where the next step fetches, the core runs, and the fetch of the next
CLOCK reads that word. The placing is the model's own device (log entry 11), built from START and one cell. -/
def Obligations.PlacedWordIsFetchedNext : Prop :=
  ∀ (s : State) (nbits w : Nat), nbits ≤ 16 → w < 2 ^ nbits →
    (s.withFetchWord nbits w).halted = false ∧ fetchWord (s.withFetchWord nbits w) = BitVec.ofNat 16 w ∧
      decodeTableWord nbits w = some (decode (fetchWord (s.withFetchWord nbits w)))

/-! ### Operands and addresses -/

/-- R74: an N-bit immediate becomes the 16-bit value of the same signed number, its bit N-1 copied upwards; extending again
changes nothing; the ranges are those of R74; trapvect8 becomes the same unsigned number. -/
def Obligations.ImmediatesAreSignExtended : Prop :=
  (∀ (n : Nat) (v : BitVec n), 0 < n → n ≤ 16 →
    (sext v).toInt = v.toInt ∧ (∀ k < 16, (sext v).getLsbD k = v.getLsbD (if k < n then k else n - 1)) ∧
      sext ((sext v).setWidth n) = sext v) ∧
    (∀ v : BitVec 5, -16 ≤ (sext v).toInt ∧ (sext v).toInt ≤ 15) ∧
    (∀ v : BitVec 6, -32 ≤ (sext v).toInt ∧ (sext v).toInt ≤ 31) ∧
    (∀ v : BitVec 9, -256 ≤ (sext v).toInt ∧ (sext v).toInt ≤ 255) ∧
    (∀ v : BitVec 11, -1024 ≤ (sext v).toInt ∧ (sext v).toInt ≤ 1023) ∧
    (∀ v : BitVec 8, (zext v).toNat = v.toNat ∧ (zext v).toNat ≤ 0x00FF ∧
      trapVectorCell v = zext v)

/-- The PC-relative and base-relative addresses are the sums of the register and the signed offset, modulo 65536, wrapping
at both ends (R75, R121). -/
def Obligations.AddressesAreSumsModulo65536 : Prop :=
  ∀ s : State,
    (∀ off, ((pcRelative9 off s).toNat : Int) = ((s.pc.toNat : Int) + off.toInt) % 65536) ∧
    (∀ off, ((pcRelative11 off s).toNat : Int) = ((s.pc.toNat : Int) + off.toInt) % 65536) ∧
    (∀ base off, ((baseOffset6 base off s).toNat : Int) = (((s.reg base).toNat : Int) + off.toInt) % 65536)

/-! ### Memory -/

/-- R45: MemWrite stores into the cell at every address, the five device addresses included; a write to 0xFE06 also records
the word in the display latch; nothing else changes. -/
def Obligations.MemWriteStoresAtEveryAddress : Prop :=
  ∀ (ea v : Word) (s : State),
    StoredAt ea v s (memWrite ea v s) ∧ DisplayAfterWrite ea v s (memWrite ea v s) ∧
      KeyboardKept s (memWrite ea v s) ∧ SpecialsKept s (memWrite ea v s) ∧ RegsKeptExcept [] s (memWrite ea v s) ∧
      (memWrite ea v s).pc = s.pc ∧ (memWrite ea v s).psr = s.psr

/-- MemRead maps three addresses (R44, R49 to R51; the values 0x8000 and 0x0000 are decisions D5 and D6, log entry 3), gives
the cell at every other, and changes nothing but the keyboard latch, which a read of 0xFE02 clears. -/
def Obligations.MemReadMapsThreeAddresses : Prop :=
  ∀ (a : Word) (s : State),
    (a = 0xFE00#16 → s.keyboardReady = true → memReadValue a s = 0x8000#16) ∧
    (a = 0xFE00#16 → s.keyboardReady = false → memReadValue a s = 0x0000#16) ∧
    (a = 0xFE04#16 → memReadValue a s = 0x8000#16) ∧
    (a ≠ 0xFE00#16 → a ≠ 0xFE04#16 → memReadValue a s = s.cell a) ∧
    (a ≠ 0xFE02#16 → memReadEffect a s = s) ∧
    (a = 0xFE02#16 → (memReadEffect a s).keyboardReady = false ∧
      memReadEffect a s = { s with keyboardReady := (memReadEffect a s).keyboardReady } ∧
      memReadValue a (memReadEffect a s) = memReadValue a s)

/-! ### Flags -/

/-- R19: setcc sets N, Z or P from the result and keeps psr bits 15:3; it happens after every ADD, AND, NOT, LD, LDI, LDR and
LEA, with the value written to the destination; no other instruction changes the flags, but for RTI in supervisor mode,
which loads the whole psr; an exception entry and a serviced INTERRUPT leave them. -/
def Obligations.FlagsComeFromResultsOnly : Prop :=
  (∀ (v : Word) (s : State), FlagsSetBy v s.psr (s.setcc v).psr ∧ s.setcc v = { s with psr := (s.setcc v).psr }) ∧
    (∀ i dr s t, resultRegister i = some dr → exec i s = .next t → FlagsSetBy (t.reg dr) s.psr t.psr) ∧
    (∀ i s t, resultRegister i = none → i ≠ .rti → exec i s = .next t → t.flags = s.flags) ∧
    (∀ s t, s.mode = .user → exec .rti s = .next t → t.flags = s.flags) ∧
    (∀ s t, s.mode = .supervisor → exec .rti s = .next t →
      t.psr = memReadValue (s.reg 6#3 + 1) (memReadEffect (s.reg 6#3) s)) ∧
    (∀ vec pri data s, (interrupt vec pri data s).1.flags = s.flags)

/-! ### Operate instructions -/

/-- R110. -/
def Obligations.AddRegisterFormAddsModulo65536 : Prop :=
  (∀ ir : Word, ir.extractLsb' 12 4 = 0b0001#4 → ir.getLsbD 5 = false →
    decode ir = .addReg (ir.extractLsb' 9 3) (ir.extractLsb' 6 3) (ir.extractLsb' 0 3)) ∧
  ∀ dr sr1 sr2 s, ∃ t, exec (.addReg dr sr1 sr2) s = .next t ∧
    (t.reg dr).toNat = ((s.reg sr1).toNat + (s.reg sr2).toNat) % 65536 ∧ FlagsSetBy (t.reg dr) s.psr t.psr ∧
    RegsKeptExcept [dr] s t ∧ t.pc = s.pc ∧ MemoryKept s t ∧ SpecialsKept s t ∧ KeyboardKept s t ∧ DisplayKept s t

/-- R111. -/
def Obligations.AddImmediateFormAddsTheSignedImmediate : Prop :=
  (∀ ir : Word, ir.extractLsb' 12 4 = 0b0001#4 → ir.getLsbD 5 = true →
    decode ir = .addImm (ir.extractLsb' 9 3) (ir.extractLsb' 6 3) (ir.extractLsb' 0 5)) ∧
  ∀ dr sr1 imm5 s, ∃ t, exec (.addImm dr sr1 imm5) s = .next t ∧
    ((t.reg dr).toNat : Int) = (((s.reg sr1).toNat : Int) + imm5.toInt) % 65536 ∧ FlagsSetBy (t.reg dr) s.psr t.psr ∧
    RegsKeptExcept [dr] s t ∧ t.pc = s.pc ∧ MemoryKept s t ∧ SpecialsKept s t ∧ KeyboardKept s t ∧ DisplayKept s t

/-- R112. -/
def Obligations.AndRegisterFormAndsEveryBit : Prop :=
  (∀ ir : Word, ir.extractLsb' 12 4 = 0b0101#4 → ir.getLsbD 5 = false →
    decode ir = .andReg (ir.extractLsb' 9 3) (ir.extractLsb' 6 3) (ir.extractLsb' 0 3)) ∧
  ∀ dr sr1 sr2 s, ∃ t, exec (.andReg dr sr1 sr2) s = .next t ∧
    (∀ k < 16, (t.reg dr).getLsbD k = ((s.reg sr1).getLsbD k && (s.reg sr2).getLsbD k)) ∧
    FlagsSetBy (t.reg dr) s.psr t.psr ∧
    RegsKeptExcept [dr] s t ∧ t.pc = s.pc ∧ MemoryKept s t ∧ SpecialsKept s t ∧ KeyboardKept s t ∧ DisplayKept s t

/-- R113: the immediate is sign-extended before the AND, so bit 4 of imm5 masks bits 15:5. -/
def Obligations.AndImmediateFormAndsTheSignExtendedImmediate : Prop :=
  (∀ ir : Word, ir.extractLsb' 12 4 = 0b0101#4 → ir.getLsbD 5 = true →
    decode ir = .andImm (ir.extractLsb' 9 3) (ir.extractLsb' 6 3) (ir.extractLsb' 0 5)) ∧
  ∀ dr sr1 imm5 s, ∃ t, exec (.andImm dr sr1 imm5) s = .next t ∧
    (∀ k < 16, (t.reg dr).getLsbD k = ((s.reg sr1).getLsbD k && imm5.getLsbD (if k < 5 then k else 4))) ∧
    FlagsSetBy (t.reg dr) s.psr t.psr ∧
    RegsKeptExcept [dr] s t ∧ t.pc = s.pc ∧ MemoryKept s t ∧ SpecialsKept s t ∧ KeyboardKept s t ∧ DisplayKept s t

/-- R114. -/
def Obligations.NotInvertsEveryBit : Prop :=
  (∀ ir : Word, ir.extractLsb' 12 4 = 0b1001#4 → decode ir = .not (ir.extractLsb' 9 3) (ir.extractLsb' 6 3)) ∧
  ∀ dr sr s, ∃ t, exec (.not dr sr) s = .next t ∧
    (t.reg dr).toNat = 0xFFFF - (s.reg sr).toNat ∧ (∀ k < 16, (t.reg dr).getLsbD k = !(s.reg sr).getLsbD k) ∧
    FlagsSetBy (t.reg dr) s.psr t.psr ∧
    RegsKeptExcept [dr] s t ∧ t.pc = s.pc ∧ MemoryKept s t ∧ SpecialsKept s t ∧ KeyboardKept s t ∧ DisplayKept s t

/-- The immediate and the register form of ADD and of AND do the same when the register holds what the immediate encodes
(95_test_vectors.md V6). -/
def Obligations.ImmediateAndRegisterFormsAgree : Prop :=
  ∀ dr sr1 sr2 imm5 s, s.reg sr2 = sext imm5 →
    exec (.addImm dr sr1 imm5) s = exec (.addReg dr sr1 sr2) s ∧
    exec (.andImm dr sr1 imm5) s = exec (.andReg dr sr1 sr2) s

/-! ### Data movement -/

/-- R120. -/
def Obligations.LdLoadsThePcRelativeCell : Prop :=
  (∀ ir : Word, ir.extractLsb' 12 4 = 0b0010#4 → decode ir = .ld (ir.extractLsb' 9 3) (ir.extractLsb' 0 9)) ∧
  ∀ dr off s ea, ea = pcRelative9 off s → ∃ t, exec (.ld dr off) s = .next t ∧
    t.reg dr = memReadValue ea s ∧ FlagsSetBy (t.reg dr) s.psr t.psr ∧ KeyboardAfterReads [ea] s t ∧
    RegsKeptExcept [dr] s t ∧ t.pc = s.pc ∧ MemoryKept s t ∧ SpecialsKept s t ∧ DisplayKept s t

/-- R123: two reads, the pointer first; the second sees what the first did to the keyboard latch. -/
def Obligations.LdiLoadsThroughThePointer : Prop :=
  (∀ ir : Word, ir.extractLsb' 12 4 = 0b1010#4 → decode ir = .ldi (ir.extractLsb' 9 3) (ir.extractLsb' 0 9)) ∧
  ∀ dr off s pa ea, pa = pcRelative9 off s → ea = memReadValue pa s → ∃ t, exec (.ldi dr off) s = .next t ∧
    t.reg dr = memReadValue ea (memReadEffect pa s) ∧ FlagsSetBy (t.reg dr) s.psr t.psr ∧
    KeyboardAfterReads [pa, ea] s t ∧
    RegsKeptExcept [dr] s t ∧ t.pc = s.pc ∧ MemoryKept s t ∧ SpecialsKept s t ∧ DisplayKept s t

/-- R124: the base register is read before the destination is written. -/
def Obligations.LdrLoadsTheBaseRelativeCell : Prop :=
  (∀ ir : Word, ir.extractLsb' 12 4 = 0b0110#4 →
    decode ir = .ldr (ir.extractLsb' 9 3) (ir.extractLsb' 6 3) (ir.extractLsb' 0 6)) ∧
  ∀ dr base off s ea, ea = baseOffset6 base off s → ∃ t, exec (.ldr dr base off) s = .next t ∧
    t.reg dr = memReadValue ea s ∧ FlagsSetBy (t.reg dr) s.psr t.psr ∧ KeyboardAfterReads [ea] s t ∧
    RegsKeptExcept [dr] s t ∧ t.pc = s.pc ∧ MemoryKept s t ∧ SpecialsKept s t ∧ DisplayKept s t

/-- R125: the address itself, with no memory access, so no latch changes even at a device address. -/
def Obligations.LeaLoadsTheAddressAndSetsTheFlags : Prop :=
  (∀ ir : Word, ir.extractLsb' 12 4 = 0b1110#4 → decode ir = .lea (ir.extractLsb' 9 3) (ir.extractLsb' 0 9)) ∧
  ∀ dr off s, ∃ t, exec (.lea dr off) s = .next t ∧
    ((t.reg dr).toNat : Int) = ((s.pc.toNat : Int) + off.toInt) % 65536 ∧ FlagsSetBy (t.reg dr) s.psr t.psr ∧
    RegsKeptExcept [dr] s t ∧ t.pc = s.pc ∧ MemoryKept s t ∧ SpecialsKept s t ∧ KeyboardKept s t ∧ DisplayKept s t

/-- R130. -/
def Obligations.StStoresAtThePcRelativeAddress : Prop :=
  (∀ ir : Word, ir.extractLsb' 12 4 = 0b0011#4 → decode ir = .st (ir.extractLsb' 9 3) (ir.extractLsb' 0 9)) ∧
  ∀ sr off s ea, ea = pcRelative9 off s → ∃ t, exec (.st sr off) s = .next t ∧
    StoredAt ea (s.reg sr) s t ∧ DisplayAfterWrite ea (s.reg sr) s t ∧
    RegsKeptExcept [] s t ∧ t.pc = s.pc ∧ t.psr = s.psr ∧ SpecialsKept s t ∧ KeyboardKept s t

/-- R132: one read, of the pointer, then one write, where it points. -/
def Obligations.StiStoresThroughThePointer : Prop :=
  (∀ ir : Word, ir.extractLsb' 12 4 = 0b1011#4 → decode ir = .sti (ir.extractLsb' 9 3) (ir.extractLsb' 0 9)) ∧
  ∀ sr off s pa ea, pa = pcRelative9 off s → ea = memReadValue pa s → ∃ t, exec (.sti sr off) s = .next t ∧
    StoredAt ea (s.reg sr) s t ∧ DisplayAfterWrite ea (s.reg sr) s t ∧ KeyboardAfterReads [pa] s t ∧
    RegsKeptExcept [] s t ∧ t.pc = s.pc ∧ t.psr = s.psr ∧ SpecialsKept s t

/-- R133: no register is written, the base among them. -/
def Obligations.StrStoresAtTheBaseRelativeAddress : Prop :=
  (∀ ir : Word, ir.extractLsb' 12 4 = 0b0111#4 →
    decode ir = .str (ir.extractLsb' 9 3) (ir.extractLsb' 6 3) (ir.extractLsb' 0 6)) ∧
  ∀ sr base off s ea, ea = baseOffset6 base off s → ∃ t, exec (.str sr base off) s = .next t ∧
    StoredAt ea (s.reg sr) s t ∧ DisplayAfterWrite ea (s.reg sr) s t ∧
    RegsKeptExcept [] s t ∧ t.pc = s.pc ∧ t.psr = s.psr ∧ SpecialsKept s t ∧ KeyboardKept s t

/-! ### Control -/

/-- R140: the branch is taken when a requested condition is among the set flags, for all eight flag patterns (decision D27,
log entry 5); nothing but pc changes. -/
def Obligations.BrBranchesOnARequestedFlag : Prop :=
  (∀ ir : Word, ir.extractLsb' 12 4 = 0b0000#4 → decode ir = .br (ir.extractLsb' 9 3) (ir.extractLsb' 0 9)) ∧
  ∀ nzp off s, ∃ t, exec (.br nzp off) s = .next t ∧ t = { s with pc := t.pc } ∧
    (((nzp.getLsbD 2 = true ∧ s.psr.getLsbD 2 = true) ∨ (nzp.getLsbD 1 = true ∧ s.psr.getLsbD 1 = true) ∨
      (nzp.getLsbD 0 = true ∧ s.psr.getLsbD 0 = true)) → t.pc = pcRelative9 off s) ∧
    (¬((nzp.getLsbD 2 = true ∧ s.psr.getLsbD 2 = true) ∨ (nzp.getLsbD 1 = true ∧ s.psr.getLsbD 1 = true) ∨
      (nzp.getLsbD 0 = true ∧ s.psr.getLsbD 0 = true)) → t.pc = s.pc)

/-- R143; RET is JMP R7. -/
def Obligations.JmpGoesToTheBaseRegister : Prop :=
  (∀ ir : Word, ir.extractLsb' 12 4 = 0b1100#4 → decode ir = .jmp (ir.extractLsb' 6 3)) ∧
    decode 0xC1C0#16 = .jmp 7#3 ∧
  ∀ base s, ∃ t, exec (.jmp base) s = .next t ∧ t.pc = s.reg base ∧ t = { s with pc := t.pc }

/-- R144. -/
def Obligations.JsrLinksAndJumpsRelative : Prop :=
  (∀ ir : Word, ir.extractLsb' 12 4 = 0b0100#4 → ir.getLsbD 11 = true → decode ir = .jsr (ir.extractLsb' 0 11)) ∧
  ∀ off s, ∃ t, exec (.jsr off) s = .next t ∧
    t.reg 7#3 = s.pc ∧ (t.pc.toNat : Int) = ((s.pc.toNat : Int) + off.toInt) % 65536 ∧
    RegsKeptExcept [7#3] s t ∧ t.psr = s.psr ∧ MemoryKept s t ∧ SpecialsKept s t ∧ KeyboardKept s t ∧ DisplayKept s t

/-- JSRR writes the link register before it reads the base (R145, decision D17, log entry 7), so `JSRR R7` falls through. -/
def Obligations.JsrrLinksBeforeItReadsTheBase : Prop :=
  (∀ ir : Word, ir.extractLsb' 12 4 = 0b0100#4 → ir.getLsbD 11 = false → decode ir = .jsrr (ir.extractLsb' 6 3)) ∧
  ∀ base s, ∃ t, exec (.jsrr base) s = .next t ∧
    t.reg 7#3 = s.pc ∧ (base ≠ 7#3 → t.pc = s.reg base) ∧ (base = 7#3 → t.pc = s.pc) ∧
    RegsKeptExcept [7#3] s t ∧ t.psr = s.psr ∧ MemoryKept s t ∧ SpecialsKept s t ∧ KeyboardKept s t ∧ DisplayKept s t

/-- R147: a call through the table: mode, priority, flags, x[6] and the shadow registers stay, and nothing is pushed. -/
def Obligations.TrapCallsThroughItsTable : Prop :=
  (∀ ir : Word, ir.extractLsb' 12 4 = 0b1111#4 → decode ir = .trap (ir.extractLsb' 0 8)) ∧
  ∀ vect s, ∃ t, exec (.trap vect) s = .next t ∧
    t.reg 7#3 = s.pc ∧ t.pc = s.cell (vect.setWidth 16) ∧
    RegsKeptExcept [7#3] s t ∧ t.psr = s.psr ∧ MemoryKept s t ∧ SpecialsKept s t ∧ KeyboardKept s t ∧ DisplayKept s t

/-- R141: a control instruction leaves the flags unchanged and raises no exception (all of psr stays, and neither memory nor
x[6] nor a shadow register is written); there is no delay slot: after the CLOCK that executes it, pc is its target and the
next fetch reads there. Any 16-bit value is a target, and the targets that are sums wrap modulo 65536. -/
def Obligations.ControlInstructionsRaiseNothingAndHaveNoDelaySlot : Prop :=
  (∀ (i : Instr) (s : State), (∃ nzp off, i = .br nzp off) ∨ (∃ base, i = .jmp base) ∨ (∃ off, i = .jsr off) ∨
      (∃ base, i = .jsrr base) ∨ (∃ vect, i = .trap vect) →
    (∃ t, exec i s = .next t ∧ t.psr = s.psr ∧ t.reg 6#3 = s.reg 6#3 ∧ t.mem = s.mem ∧ SpecialsKept s t) ∧
    (s.halted = false → decode (fetchWord s) = i → ∀ u, exec i (fetchEffect s) = .next u →
      ∃ v, step s = .next v ∧ v.pc = u.pc ∧ v.psr = s.psr ∧ fetchWord v = memReadValue u.pc v)) ∧
  (∀ (target : Word) (base : Reg) (s : State), s.reg base = target → ∃ t, exec (.jmp base) s = .next t ∧ t.pc = target) ∧
  (∀ (nzp : BitVec 3) (off : BitVec 9) (s : State), nzp &&& s.flags ≠ 0#3 → ∃ t, exec (.br nzp off) s = .next t ∧
    (t.pc.toNat : Int) = ((s.pc.toNat : Int) + off.toInt) % 65536) ∧
  (∀ (off : BitVec 11) (s : State), ∃ t, exec (.jsr off) s = .next t ∧
    (t.pc.toNat : Int) = ((s.pc.toNat : Int) + off.toInt) % 65536)

/-- R142: JSR, JSRR and TRAP leave in x[7] the incremented pc, the address of the instruction after them, whatever the
target and whatever x[7] held; said of the whole CLOCK, whose pc is still that of the instruction. -/
def Obligations.LinkRegisterHoldsTheNextAddress : Prop :=
  ∀ s t : State, s.halted = false →
    ((∃ off, decode (fetchWord s) = .jsr off) ∨ (∃ base, decode (fetchWord s) = .jsrr base) ∨
      (∃ vect, decode (fetchWord s) = .trap vect)) →
    step s = .next t → t.reg 7#3 = s.pc + 1

/-! ### RTI, exceptions and interrupts -/

/-- RTI in supervisor mode pops pc, then all of psr, keeps x[6] in saved_ssp and loads x[6] from saved_usp, whatever the
popped psr holds (R160; decision D16, log entry 6). -/
def Obligations.RtiReturnsInSupervisorMode : Prop :=
  (∀ ir : Word, ir.extractLsb' 12 4 = 0b1000#4 → decode ir = .rti) ∧
  ∀ s : State, s.mode = .supervisor → ∃ t, exec .rti s = .next t ∧
    t.pc = memReadValue (s.reg 6#3) s ∧ t.psr = memReadValue (s.reg 6#3 + 1) (memReadEffect (s.reg 6#3) s) ∧
    t.savedSsp = s.reg 6#3 + 2 ∧ t.reg 6#3 = s.savedUsp ∧ t.savedUsp = s.savedUsp ∧ RegsKeptExcept [6#3] s t ∧
    t.ie = s.ie ∧ t.halted = s.halted ∧ MemoryKept s t ∧ DisplayKept s t ∧
    KeyboardAfterReads [s.reg 6#3, s.reg 6#3 + 1] s t

/-- RTI in user mode pops nothing and takes the privilege violation, code 0 (R160, R171, R173; the stack switch is decision
D15, log entry 6). -/
def Obligations.RtiInUserModeIsAPrivilegeViolation : Prop :=
  ∀ s : State, s.mode = .user → ∃ t, exec .rti s = .next t ∧ ExceptionEntered 0#16 s t

/-- Opcode 1101 takes the illegal-opcode exception, code 1, in both modes, whatever ie and the priority are; every word
0xD000 to 0xDFFF is one (R78, R162, R173; decisions D15 and D22, log entries 2 and 6). -/
def Obligations.Opcode1101IsAnIllegalOpcode : Prop :=
  (∀ ir : Word, 0xD000 ≤ ir.toNat → ir.toNat ≤ 0xDFFF → decode ir = .reserved) ∧
  ∀ s : State, ∃ t, exec .reserved s = .next t ∧ ExceptionEntered 1#16 s t

/-- A rejected INTERRUPT changes nothing: ie is tested first, then the priority, which must be strictly greater (R180 steps 1
and 2, R32, R182; the order and the names are decision D29, log entry 8). -/
def Obligations.RejectedInterruptChangesNothing : Prop :=
  ∀ vec pri data s,
    (s.ie = false → interrupt vec pri data s = (s, .rejected .disabled)) ∧
    (s.ie = true → ¬ s.priority.toNat < pri.toNat → interrupt vec pri data s = (s, .rejected .priorityTooLow)) ∧
    (pri = 0#3 → (interrupt vec pri data s).1 = s) ∧ (s.priority = 7#3 → (interrupt vec pri data s).1 = s)

/-- A serviced INTERRUPT delivers the key, saves the context, raises the priority, enters supervisor mode and goes through
the vector cell; it neither tests nor changes `halted` (R180, R184; psr[15] by decision D14, log entry 8). -/
def Obligations.ServicedInterruptEntersItsHandler : Prop :=
  ∀ (vec : BitVec 8) (pri : BitVec 3) (data : Word) (s : State), s.ie = true → s.priority.toNat < pri.toNat →
    ∃ t, interrupt vec pri data s = (t, .serviced pri) ∧
      t.keyboardReady = true ∧ t.savedUsp = s.reg 6#3 ∧ t.savedSsp = s.savedSsp ∧ t.reg 6#3 = s.savedSsp - 2 ∧
      RegsKeptExcept [6#3] s t ∧
      (∀ a : Word, t.cell a = if a = s.savedSsp - 2 then s.pc else if a = s.savedSsp - 1 then s.psr
        else if a = 0xFE02#16 then data else s.cell a) ∧
      t.priority = pri ∧ t.mode = .supervisor ∧
      (∀ k < 15, k < 8 ∨ 10 < k → t.psr.getLsbD k = s.psr.getLsbD k) ∧
      t.pc = t.cell (0x0100#16 + vec.setWidth 16) ∧ t.ie = s.ie ∧ t.halted = s.halted ∧ DisplayAfterPushes s t

/-- Entry and return are inverse: after an entry from `s` (opcode 1101, RTI in user mode, or a serviced INTERRUPT), a handler that ends in supervisor mode with
x[6], saved_usp and the two stacked cells as it found them returns by RTI to the pc, psr and x[6] of `s`, saved_ssp as
before the entry, and its own other registers kept (R187). The stacked cells must not be KBSR or DSR, which do not read
back. Rests on decisions D15 and D16 (log entry 6). -/
def Obligations.RtiUndoesAnEntry : Prop :=
  ∀ s t u : State,
    (exec .reserved s = .next t ∨ (s.mode = .user ∧ exec .rti s = .next t) ∨
      ∃ vec pri data, interrupt vec pri data s = (t, .serviced pri)) →
    s.savedSsp - 1 ≠ 0xFE00#16 → s.savedSsp - 1 ≠ 0xFE04#16 → s.savedSsp - 2 ≠ 0xFE00#16 → s.savedSsp - 2 ≠ 0xFE04#16 →
    u.mode = .supervisor → u.reg 6#3 = t.reg 6#3 → u.savedUsp = t.savedUsp →
    u.cell (s.savedSsp - 1) = t.cell (s.savedSsp - 1) → u.cell (s.savedSsp - 2) = t.cell (s.savedSsp - 2) →
    ∃ r, exec .rti u = .next r ∧ r.pc = s.pc ∧ r.psr = s.psr ∧ r.reg 6#3 = s.reg 6#3 ∧ r.savedSsp = s.savedSsp ∧
      RegsKeptExcept [6#3] u r ∧ MemoryKept u r

/-- Nesting loses the first context (R190): a second serviced INTERRUPT before the first RTI overwrites the first frame and
saved_usp; the second handler's RTI returns into the first handler, and the first handler's RTI then returns to the same
place again, with the stale stack pointer. Rests on decisions D15 and D16 (log entry 6). -/
def Obligations.NestedEntryLosesTheFirstContext : Prop :=
  ∀ (s t u : State) (vec₁ vec₂ : BitVec 8) (pri₁ pri₂ : BitVec 3) (data₁ data₂ : Word),
    interrupt vec₁ pri₁ data₁ s = (t, .serviced pri₁) → interrupt vec₂ pri₂ data₂ t = (u, .serviced pri₂) →
    s.savedSsp - 1 ≠ 0xFE00#16 → s.savedSsp - 1 ≠ 0xFE04#16 → s.savedSsp - 2 ≠ 0xFE00#16 → s.savedSsp - 2 ≠ 0xFE04#16 →
    ∃ v w, exec .rti u = .next v ∧ v.pc = t.pc ∧ v.psr = t.psr ∧ v.reg 6#3 = t.reg 6#3 ∧
      exec .rti v = .next w ∧ w.pc = t.pc ∧ w.psr = t.psr ∧ w.mode = .supervisor ∧ w.reg 6#3 = s.savedSsp - 2 ∧
      w.savedUsp = s.savedSsp - 2

/-! ### What instructions cannot do -/

/-- The privilege bit and the priority decide nothing for any instruction but RTI and the exceptions: with any other value in
psr[15:3], an instruction does the same to everything else, and keeps that value (R18, R58, R195). -/
def Obligations.PrivilegeMattersToRtiOnly : Prop :=
  ∀ (i : Instr) (s t : State) (q : Word), i ≠ .rti → i ≠ .reserved → psrFlags q = s.flags → exec i s = .next t →
    ∃ u, exec i (s.setPsr q) = .next u ∧ u = { t with psr := u.psr } ∧ u.flags = t.flags ∧
      (∀ k, 3 ≤ k → k < 16 → u.psr.getLsbD k = q.getLsbD k ∧ t.psr.getLsbD k = s.psr.getLsbD k)

/-- Only RTI in supervisor mode leaves supervisor mode or changes the priority or the unused psr bits; only an exception
enters supervisor mode; said of every CLOCK (R163, R183, R196). -/
def Obligations.ModeAndPriorityChangeOnlyByRtiAndExceptions : Prop :=
  ∀ s t : State, step s = .next t →
    (s.mode = .supervisor → t.mode = .user → s.halted = false ∧ decode (fetchWord s) = .rti) ∧
    (s.mode = .user → t.mode = .supervisor →
      s.halted = false ∧ (decode (fetchWord s) = .rti ∨ decode (fetchWord s) = .reserved)) ∧
    ((∃ k, 3 ≤ k ∧ k < 15 ∧ t.psr.getLsbD k ≠ s.psr.getLsbD k) →
      s.halted = false ∧ s.mode = .supervisor ∧ decode (fetchWord s) = .rti)

/-- What no CLOCK does: change ie (R23), set the keyboard latch (R25), start a halted core or leave a character pending
(R24, R94); saved_usp is written by an exception entry only, and saved_ssp by RTI in supervisor mode only (R21). A CLOCK that
begins with a character pending returns a character: the pending one, but for a running core whose instruction writes 0xFE06
and so replaces it (R26, decision D11, log entry 13). -/
def Obligations.WhatNoStepDoes : Prop :=
  (∀ (s t : State) (e : Event), clock s = .next (t, e) → s.displayValid = true →
    ∃ v, e = .char v ∧ (s.halted = true → v = s.displayValue) ∧ (v = s.displayValue ∨ t.cell 0xFE06#16 = v)) ∧
  ∀ s t : State, step s = .next t →
    t.ie = s.ie ∧ (t.keyboardReady = true → s.keyboardReady = true) ∧ (s.halted = true → t.halted = true) ∧
    t.displayValid = false ∧
    (t.savedUsp ≠ s.savedUsp → s.halted = false ∧
      ((decode (fetchWord s) = .rti ∧ s.mode = .user) ∨ decode (fetchWord s) = .reserved)) ∧
    (t.savedSsp ≠ s.savedSsp → s.halted = false ∧ decode (fetchWord s) = .rti ∧ s.mode = .supervisor)

/-- No instruction changes a general register but those it names: its destination, x[7] when it links, x[6] in RTI and in an
exception entry (R10, R11, R121). -/
def Obligations.OnlyNamedRegistersAreWritten : Prop :=
  ∀ (i : Instr) (s t : State), exec i s = .next t → RegsKeptExcept (writtenRegisters i) s t

/-- No instruction but the three stores and the two that can take an exception changes a cell of memory or the display
latch (R48, R94). -/
def Obligations.OnlyStoresAndExceptionsWriteMemory : Prop :=
  ∀ (i : Instr) (s t : State), exec i s = .next t →
    (∀ sr off, i ≠ .st sr off) → (∀ sr off, i ≠ .sti sr off) → (∀ sr base off, i ≠ .str sr base off) →
    i ≠ .reserved → (i = .rti → s.mode = .supervisor) → MemoryKept s t ∧ DisplayKept s t

/-! ### The cycle -/

/-- A CLOCK of a running core executes the instruction that the word at pc decodes to, on the state after the fetch (the
read's side effect, pc incremented), and then polls (R92); a CLOCK of a halted core only polls (R97). -/
def Obligations.StepRunsTheDecodedInstruction : Prop :=
  (∀ (s u : State) (i : Instr), s.halted = false → decode (memReadValue s.pc s) = i →
    exec i ((memReadEffect s.pc s).setPc (s.pc + 1)) = .next u →
    clock s = .next (poll u) ∧ step s = .next (poll u).1) ∧
  ∀ s : State, s.halted = true → clock s = .next (poll s) ∧ step s = .next (poll s).1

/-- The poll reports a pending character first, and only without one looks at bit 15 of M[0xFFFE], whose level alone counts
(R93 to R96; decisions D7, D9 and D10, log entry 4). -/
def Obligations.PollReportsACharacterBeforeAHalt : Prop :=
  ∀ s : State,
    (s.displayValid = true → poll s = ({ s with displayValid := false }, .char s.displayValue)) ∧
    (s.displayValid = false → (s.cell 0xFFFE#16).getLsbD 15 = true → poll s = (s, .none)) ∧
    (s.displayValid = false → (s.cell 0xFFFE#16).getLsbD 15 = false → poll s = ({ s with halted := true }, .halt))

/-- A halted core stays as it is: after a CLOCK that returned Halt, the next one executes nothing, changes nothing and
returns Halt again (R95, decision D9, log entry 4). -/
def Obligations.HaltIsReportedAgainAndAgain : Prop :=
  ∀ s t : State, clock s = .next (t, .halt) →
    t.halted = true ∧ (t.cell 0xFFFE#16).getLsbD 15 = false ∧ clock t = .next (t, .halt)

/-- No single instruction both produces a character and clears the run bit (R96). -/
def Obligations.NoInstructionPrintsAndHalts : Prop :=
  ∀ (s t : State) (v : Word), s.halted = false → s.displayValid = false → (s.cell 0xFFFE#16).getLsbD 15 = true →
    clock s = .next (t, .char v) → (t.cell 0xFFFE#16).getLsbD 15 = true ∧ t.halted = false

/-- A store into the next instruction's cell is seen by the very next fetch: self-modifying code needs no barrier (R62). Said of
ST, STI and STR with whatever operands give that address, on the state after the fetch; KBSR and DSR are left out because no
fetch reads their cells (R49, R51). -/
def Obligations.StoreIsSeenByTheNextFetch : Prop :=
  ∀ (s : State) (sr : Reg) (ea : Word), s.halted = false →
    ((∃ off, decode (fetchWord s) = .st sr off ∧ ea = pcRelative9 off (fetchEffect s)) ∨
      (∃ off, decode (fetchWord s) = .sti sr off ∧
        ea = memReadValue (pcRelative9 off (fetchEffect s)) (fetchEffect s)) ∨
      (∃ base off, decode (fetchWord s) = .str sr base off ∧ ea = baseOffset6 base off (fetchEffect s))) →
    ea = s.pc + 1 → ea ≠ 0xFE00#16 → ea ≠ 0xFE04#16 →
    ∃ t, step s = .next t ∧ t.pc = ea ∧ fetchWord t = s.reg sr

/-- R7: there is no error state: every operation of R5 is defined on every state and every argument. -/
def Obligations.EveryOperationIsTotal : Prop :=
  ∀ (op : Operation) (s : State), ∃ t r, perform op s = .next (t, r)

/-- START clears `halted` and sets bit 15 of M[0xFFFE], keeping its bits 14:0, and changes nothing else (R91; the run bit by
decision D8, log entry 4). -/
def Obligations.StartRunsTheCoreAndSetsTheRunBit : Prop :=
  ∀ s : State, ∃ t, perform .start s = .next (t, .done) ∧
    t.halted = false ∧ (t.cell 0xFFFE#16).getLsbD 15 = true ∧
    (∀ k < 15, (t.cell 0xFFFE#16).getLsbD k = (s.cell 0xFFFE#16).getLsbD k) ∧
    (∀ a : Word, a ≠ 0xFFFE#16 → t.cell a = s.cell a) ∧
    t = { s with halted := false, mem := t.mem }

/-- HOST_REG_READ and HOST_REG_WRITE of R36, HOST_MEM_READ and HOST_MEM_WRITE of R60, each as the operation the host invokes.
A read of a register returns its full width (ie and halted as 1 or 0) and changes nothing. A write changes that register and
nothing else, takes all 16 bits, and reads back; any nonzero value makes ie 1 (R23); a register code is masked to 3 bits (R12).
Memory accesses have the device effects of MemRead and MemWrite. Rests on decisions D3, D18 and D23 (log entry 12). -/
def Obligations.HostReadsBackWhatItWrites : Prop :=
  (∀ (c : Nat) (s : State),
    perform (.hostRegRead (.reg (.x c))) s = .next (s, .value (s.reg (BitVec.ofNat 3 (c % 8))))) ∧
    (∀ s : State, perform (.hostRegRead (.reg .pc)) s = .next (s, .value s.pc) ∧
      perform (.hostRegRead (.reg .psr)) s = .next (s, .value s.psr) ∧
      perform (.hostRegRead (.reg .savedUsp)) s = .next (s, .value s.savedUsp) ∧
      perform (.hostRegRead (.reg .savedSsp)) s = .next (s, .value s.savedSsp) ∧
      perform (.hostRegRead (.reg .ie)) s = .next (s, .value (if s.ie = true then 1#16 else 0#16)) ∧
      perform (.hostRegRead .halted) s = .next (s, .value (if s.halted = true then 1#16 else 0#16))) ∧
    (∀ (c : Nat) (v : Word) (s : State), ∃ t, perform (.hostRegWrite (.x c) v) s = .next (t, .done) ∧
      t.reg (BitVec.ofNat 3 (c % 8)) = v ∧ RegsKeptExcept [BitVec.ofNat 3 (c % 8)] s t ∧ t = { s with x := t.x }) ∧
    (∀ (v : Word) (s : State),
      perform (.hostRegWrite .pc v) s = .next ({ s with pc := v }, .done) ∧
      perform (.hostRegWrite .psr v) s = .next ({ s with psr := v }, .done) ∧
      perform (.hostRegWrite .savedUsp v) s = .next ({ s with savedUsp := v }, .done) ∧
      perform (.hostRegWrite .savedSsp v) s = .next ({ s with savedSsp := v }, .done) ∧
      perform (.hostRegWrite .ie v) s = .next ({ s with ie := decide (v ≠ 0#16) }, .done)) ∧
    (∀ (r : HostReg) (v : Word) (s : State), ∃ t, perform (.hostRegWrite r v) s = .next (t, .done) ∧
      (r ≠ .ie → perform (.hostRegRead (.reg r)) t = .next (t, .value v))) ∧
    (∀ (a : Word) (s : State), perform (.hostMemRead a) s = .next (memReadEffect a s, .value (memReadValue a s))) ∧
    (∀ (a v : Word) (s : State), perform (.hostMemWrite a v) s = .next (memWrite a v s, .done))
end

