-- ==== Sys2Proof/Laws/State.lean ====
section
/-! SUPPORT. One lemma per field per update of State, so that no proof unfolds a record update. -/

namespace Sys2Proof.Machine

open Sys2Proof

/-! ### setReg -/

@[simp] theorem State.setReg_pc (s : State) (i : Reg) (v : Word) : (s.setReg i v).pc = s.pc := rfl
@[simp] theorem State.setReg_psr (s : State) (i : Reg) (v : Word) : (s.setReg i v).psr = s.psr := rfl
@[simp] theorem State.setReg_savedUsp (s : State) (i : Reg) (v : Word) : (s.setReg i v).savedUsp = s.savedUsp := rfl
@[simp] theorem State.setReg_savedSsp (s : State) (i : Reg) (v : Word) : (s.setReg i v).savedSsp = s.savedSsp := rfl
@[simp] theorem State.setReg_ie (s : State) (i : Reg) (v : Word) : (s.setReg i v).ie = s.ie := rfl
@[simp] theorem State.setReg_halted (s : State) (i : Reg) (v : Word) : (s.setReg i v).halted = s.halted := rfl
@[simp] theorem State.setReg_keyboardReady (s : State) (i : Reg) (v : Word) : (s.setReg i v).keyboardReady = s.keyboardReady := rfl
@[simp] theorem State.setReg_displayValid (s : State) (i : Reg) (v : Word) : (s.setReg i v).displayValid = s.displayValid := rfl
@[simp] theorem State.setReg_displayValue (s : State) (i : Reg) (v : Word) : (s.setReg i v).displayValue = s.displayValue := rfl
@[simp] theorem State.setReg_mem (s : State) (i : Reg) (v : Word) : (s.setReg i v).mem = s.mem := rfl
@[simp] theorem State.setReg_cell (s : State) (i : Reg) (v : Word) (a : Word) : (s.setReg i v).cell a = s.cell a := rfl
@[simp] theorem State.setReg_flags (s : State) (i : Reg) (v : Word) : (s.setReg i v).flags = s.flags := rfl
@[simp] theorem State.setReg_mode (s : State) (i : Reg) (v : Word) : (s.setReg i v).mode = s.mode := rfl
@[simp] theorem State.setReg_priority (s : State) (i : Reg) (v : Word) : (s.setReg i v).priority = s.priority := rfl

/-! ### setPc -/

@[simp] theorem State.setPc_x (s : State) (v : Word) : (s.setPc v).x = s.x := rfl
@[simp] theorem State.setPc_psr (s : State) (v : Word) : (s.setPc v).psr = s.psr := rfl
@[simp] theorem State.setPc_savedUsp (s : State) (v : Word) : (s.setPc v).savedUsp = s.savedUsp := rfl
@[simp] theorem State.setPc_savedSsp (s : State) (v : Word) : (s.setPc v).savedSsp = s.savedSsp := rfl
@[simp] theorem State.setPc_ie (s : State) (v : Word) : (s.setPc v).ie = s.ie := rfl
@[simp] theorem State.setPc_halted (s : State) (v : Word) : (s.setPc v).halted = s.halted := rfl
@[simp] theorem State.setPc_keyboardReady (s : State) (v : Word) : (s.setPc v).keyboardReady = s.keyboardReady := rfl
@[simp] theorem State.setPc_displayValid (s : State) (v : Word) : (s.setPc v).displayValid = s.displayValid := rfl
@[simp] theorem State.setPc_displayValue (s : State) (v : Word) : (s.setPc v).displayValue = s.displayValue := rfl
@[simp] theorem State.setPc_mem (s : State) (v : Word) : (s.setPc v).mem = s.mem := rfl
@[simp] theorem State.setPc_pc (s : State) (v : Word) : (s.setPc v).pc = v := rfl
@[simp] theorem State.setPc_reg (s : State) (v : Word) (i : Reg) : (s.setPc v).reg i = s.reg i := rfl
@[simp] theorem State.setPc_cell (s : State) (v : Word) (a : Word) : (s.setPc v).cell a = s.cell a := rfl
@[simp] theorem State.setPc_flags (s : State) (v : Word) : (s.setPc v).flags = s.flags := rfl
@[simp] theorem State.setPc_mode (s : State) (v : Word) : (s.setPc v).mode = s.mode := rfl
@[simp] theorem State.setPc_priority (s : State) (v : Word) : (s.setPc v).priority = s.priority := rfl

/-! ### setPsr -/

@[simp] theorem State.setPsr_x (s : State) (v : Word) : (s.setPsr v).x = s.x := rfl
@[simp] theorem State.setPsr_pc (s : State) (v : Word) : (s.setPsr v).pc = s.pc := rfl
@[simp] theorem State.setPsr_savedUsp (s : State) (v : Word) : (s.setPsr v).savedUsp = s.savedUsp := rfl
@[simp] theorem State.setPsr_savedSsp (s : State) (v : Word) : (s.setPsr v).savedSsp = s.savedSsp := rfl
@[simp] theorem State.setPsr_ie (s : State) (v : Word) : (s.setPsr v).ie = s.ie := rfl
@[simp] theorem State.setPsr_halted (s : State) (v : Word) : (s.setPsr v).halted = s.halted := rfl
@[simp] theorem State.setPsr_keyboardReady (s : State) (v : Word) : (s.setPsr v).keyboardReady = s.keyboardReady := rfl
@[simp] theorem State.setPsr_displayValid (s : State) (v : Word) : (s.setPsr v).displayValid = s.displayValid := rfl
@[simp] theorem State.setPsr_displayValue (s : State) (v : Word) : (s.setPsr v).displayValue = s.displayValue := rfl
@[simp] theorem State.setPsr_mem (s : State) (v : Word) : (s.setPsr v).mem = s.mem := rfl
@[simp] theorem State.setPsr_psr (s : State) (v : Word) : (s.setPsr v).psr = v := rfl
@[simp] theorem State.setPsr_reg (s : State) (v : Word) (i : Reg) : (s.setPsr v).reg i = s.reg i := rfl
@[simp] theorem State.setPsr_cell (s : State) (v : Word) (a : Word) : (s.setPsr v).cell a = s.cell a := rfl

/-! ### setSavedUsp -/

@[simp] theorem State.setSavedUsp_x (s : State) (v : Word) : (s.setSavedUsp v).x = s.x := rfl
@[simp] theorem State.setSavedUsp_pc (s : State) (v : Word) : (s.setSavedUsp v).pc = s.pc := rfl
@[simp] theorem State.setSavedUsp_psr (s : State) (v : Word) : (s.setSavedUsp v).psr = s.psr := rfl
@[simp] theorem State.setSavedUsp_savedSsp (s : State) (v : Word) : (s.setSavedUsp v).savedSsp = s.savedSsp := rfl
@[simp] theorem State.setSavedUsp_ie (s : State) (v : Word) : (s.setSavedUsp v).ie = s.ie := rfl
@[simp] theorem State.setSavedUsp_halted (s : State) (v : Word) : (s.setSavedUsp v).halted = s.halted := rfl
@[simp] theorem State.setSavedUsp_keyboardReady (s : State) (v : Word) : (s.setSavedUsp v).keyboardReady = s.keyboardReady := rfl
@[simp] theorem State.setSavedUsp_displayValid (s : State) (v : Word) : (s.setSavedUsp v).displayValid = s.displayValid := rfl
@[simp] theorem State.setSavedUsp_displayValue (s : State) (v : Word) : (s.setSavedUsp v).displayValue = s.displayValue := rfl
@[simp] theorem State.setSavedUsp_mem (s : State) (v : Word) : (s.setSavedUsp v).mem = s.mem := rfl
@[simp] theorem State.setSavedUsp_savedUsp (s : State) (v : Word) : (s.setSavedUsp v).savedUsp = v := rfl
@[simp] theorem State.setSavedUsp_reg (s : State) (v : Word) (i : Reg) : (s.setSavedUsp v).reg i = s.reg i := rfl
@[simp] theorem State.setSavedUsp_cell (s : State) (v : Word) (a : Word) : (s.setSavedUsp v).cell a = s.cell a := rfl
@[simp] theorem State.setSavedUsp_flags (s : State) (v : Word) : (s.setSavedUsp v).flags = s.flags := rfl
@[simp] theorem State.setSavedUsp_mode (s : State) (v : Word) : (s.setSavedUsp v).mode = s.mode := rfl
@[simp] theorem State.setSavedUsp_priority (s : State) (v : Word) : (s.setSavedUsp v).priority = s.priority := rfl

/-! ### setSavedSsp -/

@[simp] theorem State.setSavedSsp_x (s : State) (v : Word) : (s.setSavedSsp v).x = s.x := rfl
@[simp] theorem State.setSavedSsp_pc (s : State) (v : Word) : (s.setSavedSsp v).pc = s.pc := rfl
@[simp] theorem State.setSavedSsp_psr (s : State) (v : Word) : (s.setSavedSsp v).psr = s.psr := rfl
@[simp] theorem State.setSavedSsp_savedUsp (s : State) (v : Word) : (s.setSavedSsp v).savedUsp = s.savedUsp := rfl
@[simp] theorem State.setSavedSsp_ie (s : State) (v : Word) : (s.setSavedSsp v).ie = s.ie := rfl
@[simp] theorem State.setSavedSsp_halted (s : State) (v : Word) : (s.setSavedSsp v).halted = s.halted := rfl
@[simp] theorem State.setSavedSsp_keyboardReady (s : State) (v : Word) : (s.setSavedSsp v).keyboardReady = s.keyboardReady := rfl
@[simp] theorem State.setSavedSsp_displayValid (s : State) (v : Word) : (s.setSavedSsp v).displayValid = s.displayValid := rfl
@[simp] theorem State.setSavedSsp_displayValue (s : State) (v : Word) : (s.setSavedSsp v).displayValue = s.displayValue := rfl
@[simp] theorem State.setSavedSsp_mem (s : State) (v : Word) : (s.setSavedSsp v).mem = s.mem := rfl
@[simp] theorem State.setSavedSsp_savedSsp (s : State) (v : Word) : (s.setSavedSsp v).savedSsp = v := rfl
@[simp] theorem State.setSavedSsp_reg (s : State) (v : Word) (i : Reg) : (s.setSavedSsp v).reg i = s.reg i := rfl
@[simp] theorem State.setSavedSsp_cell (s : State) (v : Word) (a : Word) : (s.setSavedSsp v).cell a = s.cell a := rfl
@[simp] theorem State.setSavedSsp_flags (s : State) (v : Word) : (s.setSavedSsp v).flags = s.flags := rfl
@[simp] theorem State.setSavedSsp_mode (s : State) (v : Word) : (s.setSavedSsp v).mode = s.mode := rfl
@[simp] theorem State.setSavedSsp_priority (s : State) (v : Word) : (s.setSavedSsp v).priority = s.priority := rfl

/-! ### setIe -/

@[simp] theorem State.setIe_x (s : State) (b : Bool) : (s.setIe b).x = s.x := rfl
@[simp] theorem State.setIe_pc (s : State) (b : Bool) : (s.setIe b).pc = s.pc := rfl
@[simp] theorem State.setIe_psr (s : State) (b : Bool) : (s.setIe b).psr = s.psr := rfl
@[simp] theorem State.setIe_savedUsp (s : State) (b : Bool) : (s.setIe b).savedUsp = s.savedUsp := rfl
@[simp] theorem State.setIe_savedSsp (s : State) (b : Bool) : (s.setIe b).savedSsp = s.savedSsp := rfl
@[simp] theorem State.setIe_halted (s : State) (b : Bool) : (s.setIe b).halted = s.halted := rfl
@[simp] theorem State.setIe_keyboardReady (s : State) (b : Bool) : (s.setIe b).keyboardReady = s.keyboardReady := rfl
@[simp] theorem State.setIe_displayValid (s : State) (b : Bool) : (s.setIe b).displayValid = s.displayValid := rfl
@[simp] theorem State.setIe_displayValue (s : State) (b : Bool) : (s.setIe b).displayValue = s.displayValue := rfl
@[simp] theorem State.setIe_mem (s : State) (b : Bool) : (s.setIe b).mem = s.mem := rfl
@[simp] theorem State.setIe_ie (s : State) (b : Bool) : (s.setIe b).ie = b := rfl
@[simp] theorem State.setIe_reg (s : State) (b : Bool) (i : Reg) : (s.setIe b).reg i = s.reg i := rfl
@[simp] theorem State.setIe_cell (s : State) (b : Bool) (a : Word) : (s.setIe b).cell a = s.cell a := rfl
@[simp] theorem State.setIe_flags (s : State) (b : Bool) : (s.setIe b).flags = s.flags := rfl
@[simp] theorem State.setIe_mode (s : State) (b : Bool) : (s.setIe b).mode = s.mode := rfl
@[simp] theorem State.setIe_priority (s : State) (b : Bool) : (s.setIe b).priority = s.priority := rfl

/-! ### setHalted -/

@[simp] theorem State.setHalted_x (s : State) (b : Bool) : (s.setHalted b).x = s.x := rfl
@[simp] theorem State.setHalted_pc (s : State) (b : Bool) : (s.setHalted b).pc = s.pc := rfl
@[simp] theorem State.setHalted_psr (s : State) (b : Bool) : (s.setHalted b).psr = s.psr := rfl
@[simp] theorem State.setHalted_savedUsp (s : State) (b : Bool) : (s.setHalted b).savedUsp = s.savedUsp := rfl
@[simp] theorem State.setHalted_savedSsp (s : State) (b : Bool) : (s.setHalted b).savedSsp = s.savedSsp := rfl
@[simp] theorem State.setHalted_ie (s : State) (b : Bool) : (s.setHalted b).ie = s.ie := rfl
@[simp] theorem State.setHalted_keyboardReady (s : State) (b : Bool) : (s.setHalted b).keyboardReady = s.keyboardReady := rfl
@[simp] theorem State.setHalted_displayValid (s : State) (b : Bool) : (s.setHalted b).displayValid = s.displayValid := rfl
@[simp] theorem State.setHalted_displayValue (s : State) (b : Bool) : (s.setHalted b).displayValue = s.displayValue := rfl
@[simp] theorem State.setHalted_mem (s : State) (b : Bool) : (s.setHalted b).mem = s.mem := rfl
@[simp] theorem State.setHalted_halted (s : State) (b : Bool) : (s.setHalted b).halted = b := rfl
@[simp] theorem State.setHalted_reg (s : State) (b : Bool) (i : Reg) : (s.setHalted b).reg i = s.reg i := rfl
@[simp] theorem State.setHalted_cell (s : State) (b : Bool) (a : Word) : (s.setHalted b).cell a = s.cell a := rfl
@[simp] theorem State.setHalted_flags (s : State) (b : Bool) : (s.setHalted b).flags = s.flags := rfl
@[simp] theorem State.setHalted_mode (s : State) (b : Bool) : (s.setHalted b).mode = s.mode := rfl
@[simp] theorem State.setHalted_priority (s : State) (b : Bool) : (s.setHalted b).priority = s.priority := rfl

/-! ### setKeyboardReady -/

@[simp] theorem State.setKeyboardReady_x (s : State) (b : Bool) : (s.setKeyboardReady b).x = s.x := rfl
@[simp] theorem State.setKeyboardReady_pc (s : State) (b : Bool) : (s.setKeyboardReady b).pc = s.pc := rfl
@[simp] theorem State.setKeyboardReady_psr (s : State) (b : Bool) : (s.setKeyboardReady b).psr = s.psr := rfl
@[simp] theorem State.setKeyboardReady_savedUsp (s : State) (b : Bool) : (s.setKeyboardReady b).savedUsp = s.savedUsp := rfl
@[simp] theorem State.setKeyboardReady_savedSsp (s : State) (b : Bool) : (s.setKeyboardReady b).savedSsp = s.savedSsp := rfl
@[simp] theorem State.setKeyboardReady_ie (s : State) (b : Bool) : (s.setKeyboardReady b).ie = s.ie := rfl
@[simp] theorem State.setKeyboardReady_halted (s : State) (b : Bool) : (s.setKeyboardReady b).halted = s.halted := rfl
@[simp] theorem State.setKeyboardReady_displayValid (s : State) (b : Bool) : (s.setKeyboardReady b).displayValid = s.displayValid := rfl
@[simp] theorem State.setKeyboardReady_displayValue (s : State) (b : Bool) : (s.setKeyboardReady b).displayValue = s.displayValue := rfl
@[simp] theorem State.setKeyboardReady_mem (s : State) (b : Bool) : (s.setKeyboardReady b).mem = s.mem := rfl
@[simp] theorem State.setKeyboardReady_keyboardReady (s : State) (b : Bool) : (s.setKeyboardReady b).keyboardReady = b := rfl
@[simp] theorem State.setKeyboardReady_reg (s : State) (b : Bool) (i : Reg) : (s.setKeyboardReady b).reg i = s.reg i := rfl
@[simp] theorem State.setKeyboardReady_cell (s : State) (b : Bool) (a : Word) : (s.setKeyboardReady b).cell a = s.cell a := rfl
@[simp] theorem State.setKeyboardReady_flags (s : State) (b : Bool) : (s.setKeyboardReady b).flags = s.flags := rfl
@[simp] theorem State.setKeyboardReady_mode (s : State) (b : Bool) : (s.setKeyboardReady b).mode = s.mode := rfl
@[simp] theorem State.setKeyboardReady_priority (s : State) (b : Bool) : (s.setKeyboardReady b).priority = s.priority := rfl

/-! ### latchDisplay -/

@[simp] theorem State.latchDisplay_x (s : State) (v : Word) : (s.latchDisplay v).x = s.x := rfl
@[simp] theorem State.latchDisplay_pc (s : State) (v : Word) : (s.latchDisplay v).pc = s.pc := rfl
@[simp] theorem State.latchDisplay_psr (s : State) (v : Word) : (s.latchDisplay v).psr = s.psr := rfl
@[simp] theorem State.latchDisplay_savedUsp (s : State) (v : Word) : (s.latchDisplay v).savedUsp = s.savedUsp := rfl
@[simp] theorem State.latchDisplay_savedSsp (s : State) (v : Word) : (s.latchDisplay v).savedSsp = s.savedSsp := rfl
@[simp] theorem State.latchDisplay_ie (s : State) (v : Word) : (s.latchDisplay v).ie = s.ie := rfl
@[simp] theorem State.latchDisplay_halted (s : State) (v : Word) : (s.latchDisplay v).halted = s.halted := rfl
@[simp] theorem State.latchDisplay_keyboardReady (s : State) (v : Word) : (s.latchDisplay v).keyboardReady = s.keyboardReady := rfl
@[simp] theorem State.latchDisplay_mem (s : State) (v : Word) : (s.latchDisplay v).mem = s.mem := rfl
@[simp] theorem State.latchDisplay_displayValid (s : State) (v : Word) : (s.latchDisplay v).displayValid = true := rfl
@[simp] theorem State.latchDisplay_displayValue (s : State) (v : Word) : (s.latchDisplay v).displayValue = v := rfl
@[simp] theorem State.latchDisplay_reg (s : State) (v : Word) (i : Reg) : (s.latchDisplay v).reg i = s.reg i := rfl
@[simp] theorem State.latchDisplay_cell (s : State) (v : Word) (a : Word) : (s.latchDisplay v).cell a = s.cell a := rfl
@[simp] theorem State.latchDisplay_flags (s : State) (v : Word) : (s.latchDisplay v).flags = s.flags := rfl
@[simp] theorem State.latchDisplay_mode (s : State) (v : Word) : (s.latchDisplay v).mode = s.mode := rfl
@[simp] theorem State.latchDisplay_priority (s : State) (v : Word) : (s.latchDisplay v).priority = s.priority := rfl

/-! ### clearDisplay -/

@[simp] theorem State.clearDisplay_x (s : State) : s.clearDisplay.x = s.x := rfl
@[simp] theorem State.clearDisplay_pc (s : State) : s.clearDisplay.pc = s.pc := rfl
@[simp] theorem State.clearDisplay_psr (s : State) : s.clearDisplay.psr = s.psr := rfl
@[simp] theorem State.clearDisplay_savedUsp (s : State) : s.clearDisplay.savedUsp = s.savedUsp := rfl
@[simp] theorem State.clearDisplay_savedSsp (s : State) : s.clearDisplay.savedSsp = s.savedSsp := rfl
@[simp] theorem State.clearDisplay_ie (s : State) : s.clearDisplay.ie = s.ie := rfl
@[simp] theorem State.clearDisplay_halted (s : State) : s.clearDisplay.halted = s.halted := rfl
@[simp] theorem State.clearDisplay_keyboardReady (s : State) : s.clearDisplay.keyboardReady = s.keyboardReady := rfl
@[simp] theorem State.clearDisplay_displayValue (s : State) : s.clearDisplay.displayValue = s.displayValue := rfl
@[simp] theorem State.clearDisplay_mem (s : State) : s.clearDisplay.mem = s.mem := rfl
@[simp] theorem State.clearDisplay_displayValid (s : State) : s.clearDisplay.displayValid = false := rfl
@[simp] theorem State.clearDisplay_reg (s : State) (i : Reg) : s.clearDisplay.reg i = s.reg i := rfl
@[simp] theorem State.clearDisplay_cell (s : State) (a : Word) : s.clearDisplay.cell a = s.cell a := rfl
@[simp] theorem State.clearDisplay_flags (s : State) : s.clearDisplay.flags = s.flags := rfl
@[simp] theorem State.clearDisplay_mode (s : State) : s.clearDisplay.mode = s.mode := rfl
@[simp] theorem State.clearDisplay_priority (s : State) : s.clearDisplay.priority = s.priority := rfl

/-! ### setMem -/

@[simp] theorem State.setMem_x (s : State) (m : Memory) : (s.setMem m).x = s.x := rfl
@[simp] theorem State.setMem_pc (s : State) (m : Memory) : (s.setMem m).pc = s.pc := rfl
@[simp] theorem State.setMem_psr (s : State) (m : Memory) : (s.setMem m).psr = s.psr := rfl
@[simp] theorem State.setMem_savedUsp (s : State) (m : Memory) : (s.setMem m).savedUsp = s.savedUsp := rfl
@[simp] theorem State.setMem_savedSsp (s : State) (m : Memory) : (s.setMem m).savedSsp = s.savedSsp := rfl
@[simp] theorem State.setMem_ie (s : State) (m : Memory) : (s.setMem m).ie = s.ie := rfl
@[simp] theorem State.setMem_halted (s : State) (m : Memory) : (s.setMem m).halted = s.halted := rfl
@[simp] theorem State.setMem_keyboardReady (s : State) (m : Memory) : (s.setMem m).keyboardReady = s.keyboardReady := rfl
@[simp] theorem State.setMem_displayValid (s : State) (m : Memory) : (s.setMem m).displayValid = s.displayValid := rfl
@[simp] theorem State.setMem_displayValue (s : State) (m : Memory) : (s.setMem m).displayValue = s.displayValue := rfl
@[simp] theorem State.setMem_mem (s : State) (m : Memory) : (s.setMem m).mem = m := rfl
@[simp] theorem State.setMem_reg (s : State) (m : Memory) (i : Reg) : (s.setMem m).reg i = s.reg i := rfl
@[simp] theorem State.setMem_flags (s : State) (m : Memory) : (s.setMem m).flags = s.flags := rfl
@[simp] theorem State.setMem_mode (s : State) (m : Memory) : (s.setMem m).mode = s.mode := rfl
@[simp] theorem State.setMem_priority (s : State) (m : Memory) : (s.setMem m).priority = s.priority := rfl

/-! ### Registers -/

/-- A register code is its number. -/
theorem reg_toNat_ne {i j : Reg} (h : i ≠ j) : i.toNat ≠ j.toNat := fun e => h (BitVec.eq_of_toNat_eq e)

@[simp] theorem State.reg_setReg_same (s : State) (i : Reg) (v : Word) : (s.setReg i v).reg i = v := by
  simp [State.reg, State.setReg]

theorem State.reg_setReg_ne (s : State) {i j : Reg} (v : Word) (h : i ≠ j) : (s.setReg i v).reg j = s.reg j := by
  simp [State.reg, State.setReg, reg_toNat_ne h]

/-- Read after write over the registers (R10). -/
theorem State.reg_setReg (s : State) (i j : Reg) (v : Word) :
    (s.setReg i v).reg j = if i = j then v else s.reg j := by
  by_cases h : i = j
  · subst h; simp
  · simp [h, State.reg_setReg_ne s v h]

/-- Two states whose fields agree, the registers read one by one, are the same state. -/
theorem State.ext_of_reads {s t : State} (hx : ∀ i, s.reg i = t.reg i) (hpc : s.pc = t.pc) (hpsr : s.psr = t.psr)
    (husp : s.savedUsp = t.savedUsp) (hssp : s.savedSsp = t.savedSsp) (hie : s.ie = t.ie) (hh : s.halted = t.halted)
    (hk : s.keyboardReady = t.keyboardReady) (hdv : s.displayValid = t.displayValid)
    (hd : s.displayValue = t.displayValue) (hm : s.mem = t.mem) : s = t := by
  have hx' : s.x = t.x := by
    apply Vector.ext
    intro k hk
    have := hx (BitVec.ofNat 3 k)
    have e : (BitVec.ofNat 3 k).toNat = k := by simp; omega
    simpa [State.reg, e] using this
  cases s; cases t; simp_all

end Sys2Proof.Machine
end

