-- ==== Sys2Proof/Laws/Memory.lean ====
section
/-! SUPPORT. The cells of memory: read after write, and the canonical form that every write keeps. -/

namespace Sys2Proof.Machine

open Sys2Proof

theorem Memory.read_insert (a : Nat) (v : Word) (m : Memory) (hm : ∀ c ∈ m, c.1 ≠ a) (b : Nat) :
    Memory.read (Memory.insert a v m) b = if a = b then v else Memory.read m b := by
  induction m with
  | nil => simp [Memory.insert, Memory.read]
  | cons c m ih =>
    obtain ⟨k, u⟩ := c
    have hk : k ≠ a := hm (k, u) (by simp)
    have ih := ih fun c hc => hm c (by simp [hc])
    by_cases h : a < k
    · simp [Memory.insert, h, Memory.read]
    · by_cases hkb : k = b
      · subst hkb; simp [Memory.insert, h, Memory.read, Ne.symm hk]
      · simp [Memory.insert, h, Memory.read, hkb, ih]

theorem Memory.read_filter_ne (m : Memory) (a b : Nat) :
    Memory.read (m.filter fun c => c.1 != a) b = if a = b then Params.unlistedCell else Memory.read m b := by
  induction m with
  | nil => simp [Memory.read]
  | cons c m ih =>
    obtain ⟨k, u⟩ := c
    by_cases h : k = a
    · subst h
      by_cases hb : k = b <;> simp_all [Memory.read]
    · by_cases hb : k = b
      · subst hb; simp [h, Memory.read, Ne.symm h]
      · simp [h, Memory.read, hb, ih]

/-- Read after write, over any list of cells (R59). -/
theorem Memory.read_write (m : Memory) (a : Nat) (v : Word) (b : Nat) :
    Memory.read (Memory.write m a v) b = if a = b then v else Memory.read m b := by
  unfold Memory.write
  split
  · rename_i h
    rw [Memory.read_filter_ne, h]
  · rw [Memory.read_insert _ _ _ (by simp), Memory.read_filter_ne]
    split <;> simp_all

theorem Memory.mem_insert (a : Nat) (v : Word) (m : Memory) (c : Cell) :
    c ∈ Memory.insert a v m ↔ c = (a, v) ∨ c ∈ m := by
  induction m with
  | nil => simp [Memory.insert]
  | cons d m ih =>
    obtain ⟨k, u⟩ := d
    by_cases h : a < k
    · simp [Memory.insert, h]
    · simp only [Memory.insert, h, if_false, List.mem_cons, ih]
      tauto

theorem Memory.pairwise_insert (a : Nat) (v : Word) (m : Memory) (hm : m.Pairwise fun c d => c.1 < d.1)
    (hne : ∀ c ∈ m, c.1 ≠ a) : (Memory.insert a v m).Pairwise fun c d => c.1 < d.1 := by
  induction m with
  | nil => simp [Memory.insert]
  | cons d m ih =>
    obtain ⟨k, u⟩ := d
    obtain ⟨hd, hm'⟩ := List.pairwise_cons.mp hm
    have hka : k ≠ a := hne (k, u) (by simp)
    by_cases h : a < k
    · simp only [Memory.insert, h, if_true]
      refine List.pairwise_cons.mpr ⟨?_, hm⟩
      intro c hc
      rcases List.mem_cons.mp hc with rfl | hc
      · exact h
      · exact Nat.lt_trans h (hd c hc)
    · simp only [Memory.insert, h, if_false]
      refine List.pairwise_cons.mpr ⟨?_, ih hm' fun c hc => hne c (by simp [hc])⟩
      intro c hc
      rcases (Memory.mem_insert a v m c).mp hc with rfl | hc
      · show k < a; omega
      · exact hd c hc

/-- A write at an address of the machine keeps the canonical form. -/
theorem Memory.wf_write {m : Memory} (h : Memory.wf m) (a : Nat) (ha : a < 65536) (v : Word) :
    Memory.wf (Memory.write m a v) := by
  obtain ⟨hp, hc⟩ := h
  have hp' : (m.filter fun c => c.1 != a).Pairwise fun c d => c.1 < d.1 := hp.filter _
  have hc' : ∀ c ∈ m.filter fun c => c.1 != a, c.1 < 65536 ∧ c.2 ≠ Params.unlistedCell :=
    fun c hm => hc c (List.mem_filter.mp hm).1
  unfold Memory.write
  split
  · exact ⟨hp', hc'⟩
  · rename_i hv
    refine ⟨Memory.pairwise_insert a v _ hp' (by simp), fun c hm => ?_⟩
    rcases (Memory.mem_insert a v _ c).mp hm with rfl | hm
    · exact ⟨ha, hv⟩
    · exact hc' c hm

/-- Read after write, at the addresses of the machine (R59). -/
theorem State.cell_setCell (s : State) (a v b : Word) :
    (s.setCell a v).cell b = if a = b then v else s.cell b := by
  show Memory.read (Memory.write s.mem a.toNat v) b.toNat = _
  rw [Memory.read_write]
  by_cases h : a = b
  · simp [h]
  · have : a.toNat ≠ b.toNat := fun e => h (BitVec.eq_of_toNat_eq e)
    simp [h, this, State.cell]

theorem State.setCell_wf {s : State} (h : Memory.wf s.mem) (a v : Word) : Memory.wf (s.setCell a v).mem :=
  Memory.wf_write h _ a.isLt v

end Sys2Proof.Machine
end

