-- ==== Sys2Proof/Laws/Ops.lean ====
section
/-! SUPPORT. What each shared operation does, said once: its value, what it changes, and that all else stays. -/

namespace Sys2Proof.Machine

open Sys2Proof

/-! ### setCell -/

@[simp] theorem State.setCell_x (s : State) (a v : Word) : (s.setCell a v).x = s.x := rfl
@[simp] theorem State.setCell_pc (s : State) (a v : Word) : (s.setCell a v).pc = s.pc := rfl
@[simp] theorem State.setCell_psr (s : State) (a v : Word) : (s.setCell a v).psr = s.psr := rfl
@[simp] theorem State.setCell_savedUsp (s : State) (a v : Word) : (s.setCell a v).savedUsp = s.savedUsp := rfl
@[simp] theorem State.setCell_savedSsp (s : State) (a v : Word) : (s.setCell a v).savedSsp = s.savedSsp := rfl
@[simp] theorem State.setCell_ie (s : State) (a v : Word) : (s.setCell a v).ie = s.ie := rfl
@[simp] theorem State.setCell_halted (s : State) (a v : Word) : (s.setCell a v).halted = s.halted := rfl
@[simp] theorem State.setCell_keyboardReady (s : State) (a v : Word) : (s.setCell a v).keyboardReady = s.keyboardReady := rfl
@[simp] theorem State.setCell_displayValid (s : State) (a v : Word) : (s.setCell a v).displayValid = s.displayValid := rfl
@[simp] theorem State.setCell_displayValue (s : State) (a v : Word) : (s.setCell a v).displayValue = s.displayValue := rfl
@[simp] theorem State.setCell_reg (s : State) (a v : Word) (i : Reg) : (s.setCell a v).reg i = s.reg i := rfl

/-! ### setcc and writeResult -/

@[simp] theorem State.setcc_x (s : State) (v : Word) : (s.setcc v).x = s.x := rfl
@[simp] theorem State.setcc_pc (s : State) (v : Word) : (s.setcc v).pc = s.pc := rfl
@[simp] theorem State.setcc_savedUsp (s : State) (v : Word) : (s.setcc v).savedUsp = s.savedUsp := rfl
@[simp] theorem State.setcc_savedSsp (s : State) (v : Word) : (s.setcc v).savedSsp = s.savedSsp := rfl
@[simp] theorem State.setcc_ie (s : State) (v : Word) : (s.setcc v).ie = s.ie := rfl
@[simp] theorem State.setcc_halted (s : State) (v : Word) : (s.setcc v).halted = s.halted := rfl
@[simp] theorem State.setcc_keyboardReady (s : State) (v : Word) : (s.setcc v).keyboardReady = s.keyboardReady := rfl
@[simp] theorem State.setcc_displayValid (s : State) (v : Word) : (s.setcc v).displayValid = s.displayValid := rfl
@[simp] theorem State.setcc_displayValue (s : State) (v : Word) : (s.setcc v).displayValue = s.displayValue := rfl
@[simp] theorem State.setcc_mem (s : State) (v : Word) : (s.setcc v).mem = s.mem := rfl
@[simp] theorem State.setcc_psr (s : State) (v : Word) : (s.setcc v).psr = psrWithFlags s.psr (conditionOf v) := rfl
@[simp] theorem State.setcc_reg (s : State) (v : Word) (i : Reg) : (s.setcc v).reg i = s.reg i := rfl
@[simp] theorem State.setcc_cell (s : State) (v a : Word) : (s.setcc v).cell a = s.cell a := rfl

@[simp] theorem writeResult_pc (dr : Reg) (v : Word) (s : State) : (writeResult dr v s).pc = s.pc := rfl
@[simp] theorem writeResult_savedUsp (dr : Reg) (v : Word) (s : State) : (writeResult dr v s).savedUsp = s.savedUsp := rfl
@[simp] theorem writeResult_savedSsp (dr : Reg) (v : Word) (s : State) : (writeResult dr v s).savedSsp = s.savedSsp := rfl
@[simp] theorem writeResult_ie (dr : Reg) (v : Word) (s : State) : (writeResult dr v s).ie = s.ie := rfl
@[simp] theorem writeResult_halted (dr : Reg) (v : Word) (s : State) : (writeResult dr v s).halted = s.halted := rfl
@[simp] theorem writeResult_keyboardReady (dr : Reg) (v : Word) (s : State) : (writeResult dr v s).keyboardReady = s.keyboardReady := rfl
@[simp] theorem writeResult_displayValid (dr : Reg) (v : Word) (s : State) : (writeResult dr v s).displayValid = s.displayValid := rfl
@[simp] theorem writeResult_displayValue (dr : Reg) (v : Word) (s : State) : (writeResult dr v s).displayValue = s.displayValue := rfl
@[simp] theorem writeResult_mem (dr : Reg) (v : Word) (s : State) : (writeResult dr v s).mem = s.mem := rfl
@[simp] theorem writeResult_psr (dr : Reg) (v : Word) (s : State) :
    (writeResult dr v s).psr = psrWithFlags s.psr (conditionOf v) := rfl
@[simp] theorem writeResult_cell (dr : Reg) (v : Word) (s : State) (a : Word) : (writeResult dr v s).cell a = s.cell a := rfl

theorem writeResult_reg (dr : Reg) (v : Word) (s : State) (i : Reg) :
    (writeResult dr v s).reg i = if dr = i then v else s.reg i :=
  State.reg_setReg s dr i v

/-! ### MemRead -/

@[simp] theorem memReadEffect_x (a : Word) (s : State) : (memReadEffect a s).x = s.x := by
  unfold memReadEffect; split <;> rfl
@[simp] theorem memReadEffect_pc (a : Word) (s : State) : (memReadEffect a s).pc = s.pc := by
  unfold memReadEffect; split <;> rfl
@[simp] theorem memReadEffect_psr (a : Word) (s : State) : (memReadEffect a s).psr = s.psr := by
  unfold memReadEffect; split <;> rfl
@[simp] theorem memReadEffect_savedUsp (a : Word) (s : State) : (memReadEffect a s).savedUsp = s.savedUsp := by
  unfold memReadEffect; split <;> rfl
@[simp] theorem memReadEffect_savedSsp (a : Word) (s : State) : (memReadEffect a s).savedSsp = s.savedSsp := by
  unfold memReadEffect; split <;> rfl
@[simp] theorem memReadEffect_ie (a : Word) (s : State) : (memReadEffect a s).ie = s.ie := by
  unfold memReadEffect; split <;> rfl
@[simp] theorem memReadEffect_halted (a : Word) (s : State) : (memReadEffect a s).halted = s.halted := by
  unfold memReadEffect; split <;> rfl
@[simp] theorem memReadEffect_displayValid (a : Word) (s : State) : (memReadEffect a s).displayValid = s.displayValid := by
  unfold memReadEffect; split <;> rfl
@[simp] theorem memReadEffect_displayValue (a : Word) (s : State) : (memReadEffect a s).displayValue = s.displayValue := by
  unfold memReadEffect; split <;> rfl
@[simp] theorem memReadEffect_mem (a : Word) (s : State) : (memReadEffect a s).mem = s.mem := by
  unfold memReadEffect; split <;> rfl
@[simp] theorem memReadEffect_reg (a : Word) (s : State) (i : Reg) : (memReadEffect a s).reg i = s.reg i := by
  unfold memReadEffect; split <;> rfl
@[simp] theorem memReadEffect_cell (a : Word) (s : State) (b : Word) : (memReadEffect a s).cell b = s.cell b := by
  unfold memReadEffect; split <;> rfl
theorem memReadEffect_keyboardReady (a : Word) (s : State) :
    (memReadEffect a s).keyboardReady = if a = Config.kbdrAddr then false else s.keyboardReady := by
  unfold memReadEffect; split <;> rfl

/-- At an address that is neither KBSR nor DSR, MemRead returns the cell (R44). -/
theorem memReadValue_plain {a : Word} (h1 : a ≠ Config.kbsrAddr) (h2 : a ≠ Config.dsrAddr) (s : State) :
    memReadValue a s = s.cell a := by
  simp [memReadValue, h1, h2]

/-- What MemRead returns depends on the keyboard latch and the cell alone. -/
theorem memReadValue_congr {s t : State} (a : Word) (hk : s.keyboardReady = t.keyboardReady) (hc : s.cell a = t.cell a) :
    memReadValue a s = memReadValue a t := by
  simp [memReadValue, hk, hc]

/-! ### MemWrite -/

@[simp] theorem memWrite_x (a v : Word) (s : State) : (memWrite a v s).x = s.x := by
  unfold memWrite; dsimp only; split <;> rfl
@[simp] theorem memWrite_pc (a v : Word) (s : State) : (memWrite a v s).pc = s.pc := by
  unfold memWrite; dsimp only; split <;> rfl
@[simp] theorem memWrite_psr (a v : Word) (s : State) : (memWrite a v s).psr = s.psr := by
  unfold memWrite; dsimp only; split <;> rfl
@[simp] theorem memWrite_savedUsp (a v : Word) (s : State) : (memWrite a v s).savedUsp = s.savedUsp := by
  unfold memWrite; dsimp only; split <;> rfl
@[simp] theorem memWrite_savedSsp (a v : Word) (s : State) : (memWrite a v s).savedSsp = s.savedSsp := by
  unfold memWrite; dsimp only; split <;> rfl
@[simp] theorem memWrite_ie (a v : Word) (s : State) : (memWrite a v s).ie = s.ie := by
  unfold memWrite; dsimp only; split <;> rfl
@[simp] theorem memWrite_halted (a v : Word) (s : State) : (memWrite a v s).halted = s.halted := by
  unfold memWrite; dsimp only; split <;> rfl
@[simp] theorem memWrite_keyboardReady (a v : Word) (s : State) : (memWrite a v s).keyboardReady = s.keyboardReady := by
  unfold memWrite; dsimp only; split <;> rfl
@[simp] theorem memWrite_reg (a v : Word) (s : State) (i : Reg) : (memWrite a v s).reg i = s.reg i := by
  unfold memWrite; dsimp only; split <;> rfl
theorem memWrite_mem (a v : Word) (s : State) : (memWrite a v s).mem = (s.setCell a v).mem := by
  unfold memWrite; dsimp only; split <;> rfl
theorem memWrite_displayValid (a v : Word) (s : State) :
    (memWrite a v s).displayValid = if a = Config.ddrAddr then true else s.displayValid := by
  unfold memWrite; dsimp only; split <;> rfl
theorem memWrite_displayValue (a v : Word) (s : State) :
    (memWrite a v s).displayValue = if a = Config.ddrAddr then v else s.displayValue := by
  unfold memWrite; dsimp only; split <;> rfl

/-- A MemWrite stores into its cell at every address and into no other (R45). -/
theorem memWrite_cell (a v : Word) (s : State) (b : Word) :
    (memWrite a v s).cell b = if a = b then v else s.cell b := by
  have : (memWrite a v s).cell b = (s.setCell a v).cell b := by
    show Memory.read _ _ = Memory.read _ _; rw [memWrite_mem]
  rw [this, State.cell_setCell]

theorem memWrite_wf (a v : Word) {s : State} (h : Memory.wf s.mem) : Memory.wf (memWrite a v s).mem := by
  rw [memWrite_mem]; exact State.setCell_wf h a v

/-! ### push and pop -/

@[simp] theorem push_pc (v : Word) (s : State) : (push v s).pc = s.pc := by simp [push]
@[simp] theorem push_psr (v : Word) (s : State) : (push v s).psr = s.psr := by simp [push]
@[simp] theorem push_savedUsp (v : Word) (s : State) : (push v s).savedUsp = s.savedUsp := by simp [push]
@[simp] theorem push_savedSsp (v : Word) (s : State) : (push v s).savedSsp = s.savedSsp := by simp [push]
@[simp] theorem push_ie (v : Word) (s : State) : (push v s).ie = s.ie := by simp [push]
@[simp] theorem push_halted (v : Word) (s : State) : (push v s).halted = s.halted := by simp [push]
@[simp] theorem push_keyboardReady (v : Word) (s : State) : (push v s).keyboardReady = s.keyboardReady := by simp [push]
theorem push_reg (v : Word) (s : State) (i : Reg) :
    (push v s).reg i = if Config.stackPointer = i then s.reg Config.stackPointer - 1 else s.reg i := by
  simp [push, State.reg_setReg]
theorem push_cell (v : Word) (s : State) (b : Word) :
    (push v s).cell b = if s.reg Config.stackPointer - 1 = b then v else s.cell b := by
  simp [push, memWrite_cell]
theorem push_displayValid (v : Word) (s : State) :
    (push v s).displayValid = if s.reg Config.stackPointer - 1 = Config.ddrAddr then true else s.displayValid := by
  simp [push, memWrite_displayValid]
theorem push_displayValue (v : Word) (s : State) :
    (push v s).displayValue = if s.reg Config.stackPointer - 1 = Config.ddrAddr then v else s.displayValue := by
  simp [push, memWrite_displayValue]
theorem push_wf (v : Word) {s : State} (h : Memory.wf s.mem) : Memory.wf (push v s).mem :=
  memWrite_wf _ _ (by simpa using h)

@[simp] theorem popEffect_pc (s : State) : (popEffect s).pc = s.pc := by simp [popEffect]
@[simp] theorem popEffect_psr (s : State) : (popEffect s).psr = s.psr := by simp [popEffect]
@[simp] theorem popEffect_savedUsp (s : State) : (popEffect s).savedUsp = s.savedUsp := by simp [popEffect]
@[simp] theorem popEffect_savedSsp (s : State) : (popEffect s).savedSsp = s.savedSsp := by simp [popEffect]
@[simp] theorem popEffect_ie (s : State) : (popEffect s).ie = s.ie := by simp [popEffect]
@[simp] theorem popEffect_halted (s : State) : (popEffect s).halted = s.halted := by simp [popEffect]
@[simp] theorem popEffect_displayValid (s : State) : (popEffect s).displayValid = s.displayValid := by simp [popEffect]
@[simp] theorem popEffect_displayValue (s : State) : (popEffect s).displayValue = s.displayValue := by simp [popEffect]
@[simp] theorem popEffect_mem (s : State) : (popEffect s).mem = s.mem := by simp [popEffect]
@[simp] theorem popEffect_cell (s : State) (a : Word) : (popEffect s).cell a = s.cell a := by simp [popEffect]
theorem popEffect_keyboardReady (s : State) :
    (popEffect s).keyboardReady = if s.reg Config.stackPointer = Config.kbdrAddr then false else s.keyboardReady := by
  simp [popEffect, memReadEffect_keyboardReady]
theorem popEffect_reg (s : State) (i : Reg) :
    (popEffect s).reg i = if Config.stackPointer = i then s.reg Config.stackPointer + 1 else s.reg i := by
  simp [popEffect, State.reg_setReg]

/-! ### The context-save sequence and exception entry -/

@[simp] theorem contextSave_pc (s : State) : (contextSave s).pc = s.pc := by simp [contextSave]
@[simp] theorem contextSave_psr (s : State) : (contextSave s).psr = s.psr := by simp [contextSave]
@[simp] theorem contextSave_savedSsp (s : State) : (contextSave s).savedSsp = s.savedSsp := by simp [contextSave]
@[simp] theorem contextSave_ie (s : State) : (contextSave s).ie = s.ie := by simp [contextSave]
@[simp] theorem contextSave_halted (s : State) : (contextSave s).halted = s.halted := by simp [contextSave]
@[simp] theorem contextSave_keyboardReady (s : State) : (contextSave s).keyboardReady = s.keyboardReady := by simp [contextSave]
@[simp] theorem contextSave_savedUsp (s : State) : (contextSave s).savedUsp = s.reg Config.stackPointer := by
  simp [contextSave]
theorem contextSave_reg (s : State) (i : Reg) :
    (contextSave s).reg i = if Config.stackPointer = i then s.savedSsp - 1 - 1 else s.reg i := by
  by_cases h : Config.stackPointer = i <;> simp [contextSave, push_reg, State.reg_setReg, h]

/-- The frame that an entry builds: the old psr at saved_ssp - 1 and the return pc at saved_ssp - 2 (R172). -/
theorem contextSave_cell (s : State) (a : Word) :
    (contextSave s).cell a =
      if s.savedSsp - 1 - 1 = a then s.pc else if s.savedSsp - 1 = a then s.psr else s.cell a := by
  simp [contextSave, push_cell, push_reg]
theorem contextSave_displayValid (s : State) :
    (contextSave s).displayValid =
      if s.savedSsp - 1 - 1 = Config.ddrAddr then true
      else if s.savedSsp - 1 = Config.ddrAddr then true else s.displayValid := by
  simp [contextSave, push_displayValid, push_reg]
theorem contextSave_displayValue (s : State) :
    (contextSave s).displayValue =
      if s.savedSsp - 1 - 1 = Config.ddrAddr then s.pc
      else if s.savedSsp - 1 = Config.ddrAddr then s.psr else s.displayValue := by
  simp [contextSave, push_displayValue, push_reg]
theorem contextSave_wf {s : State} (h : Memory.wf s.mem) : Memory.wf (contextSave s).mem :=
  push_wf _ (push_wf _ (by simpa using h))

@[simp] theorem jumpThrough_x (a : Word) (s : State) : (jumpThrough a s).x = s.x := by simp [jumpThrough]
@[simp] theorem jumpThrough_psr (a : Word) (s : State) : (jumpThrough a s).psr = s.psr := by simp [jumpThrough]
@[simp] theorem jumpThrough_savedUsp (a : Word) (s : State) : (jumpThrough a s).savedUsp = s.savedUsp := by simp [jumpThrough]
@[simp] theorem jumpThrough_savedSsp (a : Word) (s : State) : (jumpThrough a s).savedSsp = s.savedSsp := by simp [jumpThrough]
@[simp] theorem jumpThrough_ie (a : Word) (s : State) : (jumpThrough a s).ie = s.ie := by simp [jumpThrough]
@[simp] theorem jumpThrough_halted (a : Word) (s : State) : (jumpThrough a s).halted = s.halted := by simp [jumpThrough]
@[simp] theorem jumpThrough_displayValid (a : Word) (s : State) : (jumpThrough a s).displayValid = s.displayValid := by simp [jumpThrough]
@[simp] theorem jumpThrough_displayValue (a : Word) (s : State) : (jumpThrough a s).displayValue = s.displayValue := by simp [jumpThrough]
@[simp] theorem jumpThrough_mem (a : Word) (s : State) : (jumpThrough a s).mem = s.mem := by simp [jumpThrough]
@[simp] theorem jumpThrough_reg (a : Word) (s : State) (i : Reg) : (jumpThrough a s).reg i = s.reg i := by simp [jumpThrough]
@[simp] theorem jumpThrough_cell (a : Word) (s : State) (b : Word) : (jumpThrough a s).cell b = s.cell b := by simp [jumpThrough]
@[simp] theorem jumpThrough_pc (a : Word) (s : State) : (jumpThrough a s).pc = memReadValue a s := rfl
theorem jumpThrough_keyboardReady (a : Word) (s : State) :
    (jumpThrough a s).keyboardReady = if a = Config.kbdrAddr then false else s.keyboardReady := by
  simp [jumpThrough, memReadEffect_keyboardReady]

/-- A cell of the interrupt vector table is no device register (R41). -/
theorem intVectorCell_toNat (code : BitVec 8) : (intVectorCell code).toNat = 256 + code.toNat := by
  have := code.isLt
  simp [intVectorCell, Config.intTableBase, zext, BitVec.toNat_add]; omega

/-- A cell of the trap vector table is no device register (R41). -/
theorem trapVectorCell_toNat (vect : BitVec 8) : (trapVectorCell vect).toNat = vect.toNat := by
  have := vect.isLt
  simp [trapVectorCell, Config.trapTableBase, zext]; omega

/-- Addresses below the device page are plain storage (R42, R56). -/
theorem plain_of_lt {a : Word} (h : a.toNat < 65024) :
    a ≠ Config.kbsrAddr ∧ a ≠ Config.kbdrAddr ∧ a ≠ Config.dsrAddr ∧ a ≠ Config.ddrAddr ∧ a ≠ Config.mcrAddr := by
  refine ⟨?_, ?_, ?_, ?_, ?_⟩ <;> rintro rfl <;> revert h <;> decide

theorem memReadValue_intVectorCell (code : BitVec 8) (s : State) :
    memReadValue (intVectorCell code) s = s.cell (intVectorCell code) := by
  have h := plain_of_lt (a := intVectorCell code) (by rw [intVectorCell_toNat]; have := code.isLt; omega)
  exact memReadValue_plain h.1 h.2.2.1 s

theorem memReadValue_trapVectorCell (vect : BitVec 8) (s : State) :
    memReadValue (trapVectorCell vect) s = s.cell (trapVectorCell vect) := by
  have h := plain_of_lt (a := trapVectorCell vect) (by rw [trapVectorCell_toNat]; have := vect.isLt; omega)
  exact memReadValue_plain h.1 h.2.2.1 s

@[simp] theorem jumpThrough_trapVectorCell_keyboardReady (vect : BitVec 8) (s : State) :
    (jumpThrough (trapVectorCell vect) s).keyboardReady = s.keyboardReady := by
  have h := plain_of_lt (a := trapVectorCell vect) (by rw [trapVectorCell_toNat]; have := vect.isLt; omega)
  simp [jumpThrough_keyboardReady, h.2.1]

@[simp] theorem jumpThrough_intVectorCell_keyboardReady (code : BitVec 8) (s : State) :
    (jumpThrough (intVectorCell code) s).keyboardReady = s.keyboardReady := by
  have h := plain_of_lt (a := intVectorCell code) (by rw [intVectorCell_toNat]; have := code.isLt; omega)
  simp [jumpThrough_keyboardReady, h.2.1]

@[simp] theorem exceptionEntry_savedSsp (code : BitVec 8) (s : State) : (exceptionEntry code s).savedSsp = s.savedSsp := by simp [exceptionEntry]
@[simp] theorem exceptionEntry_ie (code : BitVec 8) (s : State) : (exceptionEntry code s).ie = s.ie := by simp [exceptionEntry]
@[simp] theorem exceptionEntry_halted (code : BitVec 8) (s : State) : (exceptionEntry code s).halted = s.halted := by simp [exceptionEntry]
@[simp] theorem exceptionEntry_keyboardReady (code : BitVec 8) (s : State) : (exceptionEntry code s).keyboardReady = s.keyboardReady := by simp [exceptionEntry]
@[simp] theorem exceptionEntry_savedUsp (code : BitVec 8) (s : State) :
    (exceptionEntry code s).savedUsp = s.reg Config.stackPointer := by simp [exceptionEntry]
@[simp] theorem exceptionEntry_psr (code : BitVec 8) (s : State) :
    (exceptionEntry code s).psr = psrToSupervisor s.psr := by simp [exceptionEntry]
theorem exceptionEntry_reg (code : BitVec 8) (s : State) (i : Reg) :
    (exceptionEntry code s).reg i = (contextSave s).reg i := by simp [exceptionEntry]
theorem exceptionEntry_cell (code : BitVec 8) (s : State) (a : Word) :
    (exceptionEntry code s).cell a = (contextSave s).cell a := by simp [exceptionEntry]

/-- The handler's address is read from the vector cell after the pushes (R176). -/
theorem exceptionEntry_pc (code : BitVec 8) (s : State) :
    (exceptionEntry code s).pc = (contextSave s).cell (intVectorCell code) := by
  simp [exceptionEntry, memReadValue_intVectorCell]
theorem exceptionEntry_displayValid (code : BitVec 8) (s : State) :
    (exceptionEntry code s).displayValid = (contextSave s).displayValid := by simp [exceptionEntry]
theorem exceptionEntry_displayValue (code : BitVec 8) (s : State) :
    (exceptionEntry code s).displayValue = (contextSave s).displayValue := by simp [exceptionEntry]
theorem exceptionEntry_wf (code : BitVec 8) {s : State} (h : Memory.wf s.mem) :
    Memory.wf (exceptionEntry code s).mem := by
  simpa [exceptionEntry] using contextSave_wf h

/-! ### Return from an exception -/

@[simp] theorem exceptionReturn_savedUsp (s : State) : (exceptionReturn s).savedUsp = s.savedUsp := by simp [exceptionReturn]
@[simp] theorem exceptionReturn_ie (s : State) : (exceptionReturn s).ie = s.ie := by simp [exceptionReturn]
@[simp] theorem exceptionReturn_halted (s : State) : (exceptionReturn s).halted = s.halted := by simp [exceptionReturn]
@[simp] theorem exceptionReturn_displayValid (s : State) : (exceptionReturn s).displayValid = s.displayValid := by simp [exceptionReturn]
@[simp] theorem exceptionReturn_displayValue (s : State) : (exceptionReturn s).displayValue = s.displayValue := by simp [exceptionReturn]
@[simp] theorem exceptionReturn_mem (s : State) : (exceptionReturn s).mem = s.mem := by simp [exceptionReturn]
@[simp] theorem exceptionReturn_cell (s : State) (a : Word) : (exceptionReturn s).cell a = s.cell a := by
  simp [exceptionReturn]
@[simp] theorem exceptionReturn_pc (s : State) : (exceptionReturn s).pc = popValue s := by simp [exceptionReturn]
theorem exceptionReturn_psr (s : State) : (exceptionReturn s).psr = popValue ((popEffect s).setPc (popValue s)) := by
  simp [exceptionReturn]
@[simp] theorem exceptionReturn_savedSsp (s : State) :
    (exceptionReturn s).savedSsp = s.reg Config.stackPointer + 1 + 1 := by
  simp [exceptionReturn, popEffect_reg]
theorem exceptionReturn_reg (s : State) (i : Reg) :
    (exceptionReturn s).reg i = if Config.stackPointer = i then s.savedUsp else s.reg i := by
  by_cases h : Config.stackPointer = i <;> simp [exceptionReturn, popEffect_reg, State.reg_setReg, h]

/-! ### link -/

@[simp] theorem link_pc (s : State) : (link s).pc = s.pc := rfl
@[simp] theorem link_psr (s : State) : (link s).psr = s.psr := rfl
@[simp] theorem link_savedUsp (s : State) : (link s).savedUsp = s.savedUsp := rfl
@[simp] theorem link_savedSsp (s : State) : (link s).savedSsp = s.savedSsp := rfl
@[simp] theorem link_ie (s : State) : (link s).ie = s.ie := rfl
@[simp] theorem link_halted (s : State) : (link s).halted = s.halted := rfl
@[simp] theorem link_keyboardReady (s : State) : (link s).keyboardReady = s.keyboardReady := rfl
@[simp] theorem link_displayValid (s : State) : (link s).displayValid = s.displayValid := rfl
@[simp] theorem link_displayValue (s : State) : (link s).displayValue = s.displayValue := rfl
@[simp] theorem link_mem (s : State) : (link s).mem = s.mem := rfl
@[simp] theorem link_cell (s : State) (a : Word) : (link s).cell a = s.cell a := rfl
theorem link_reg (s : State) (i : Reg) : (link s).reg i = if Config.linkRegister = i then s.pc else s.reg i :=
  State.reg_setReg s _ i _

/-! ### Loads -/

@[simp] theorem loadFrom_pc (dr : Reg) (a : Word) (s : State) : (loadFrom dr a s).pc = s.pc := by simp [loadFrom]
@[simp] theorem loadFrom_savedUsp (dr : Reg) (a : Word) (s : State) : (loadFrom dr a s).savedUsp = s.savedUsp := by simp [loadFrom]
@[simp] theorem loadFrom_savedSsp (dr : Reg) (a : Word) (s : State) : (loadFrom dr a s).savedSsp = s.savedSsp := by simp [loadFrom]
@[simp] theorem loadFrom_ie (dr : Reg) (a : Word) (s : State) : (loadFrom dr a s).ie = s.ie := by simp [loadFrom]
@[simp] theorem loadFrom_halted (dr : Reg) (a : Word) (s : State) : (loadFrom dr a s).halted = s.halted := by simp [loadFrom]
@[simp] theorem loadFrom_displayValid (dr : Reg) (a : Word) (s : State) : (loadFrom dr a s).displayValid = s.displayValid := by simp [loadFrom]
@[simp] theorem loadFrom_displayValue (dr : Reg) (a : Word) (s : State) : (loadFrom dr a s).displayValue = s.displayValue := by simp [loadFrom]
@[simp] theorem loadFrom_mem (dr : Reg) (a : Word) (s : State) : (loadFrom dr a s).mem = s.mem := by simp [loadFrom]
@[simp] theorem loadFrom_cell (dr : Reg) (a : Word) (s : State) (b : Word) : (loadFrom dr a s).cell b = s.cell b := by
  simp [loadFrom]
@[simp] theorem loadFrom_psr (dr : Reg) (a : Word) (s : State) :
    (loadFrom dr a s).psr = psrWithFlags s.psr (conditionOf (memReadValue a s)) := by simp [loadFrom]
theorem loadFrom_reg (dr : Reg) (a : Word) (s : State) (i : Reg) :
    (loadFrom dr a s).reg i = if dr = i then memReadValue a s else s.reg i := by
  simp [loadFrom, writeResult_reg]
theorem loadFrom_keyboardReady (dr : Reg) (a : Word) (s : State) :
    (loadFrom dr a s).keyboardReady = if a = Config.kbdrAddr then false else s.keyboardReady := by
  simp [loadFrom, memReadEffect_keyboardReady]

/-! ### The operations do not look at psr -/

theorem memReadEffect_setPsr (a q : Word) (s : State) : memReadEffect a (s.setPsr q) = (memReadEffect a s).setPsr q := by
  unfold memReadEffect; split <;> rfl
theorem memWrite_setPsr (a v q : Word) (s : State) : memWrite a v (s.setPsr q) = (memWrite a v s).setPsr q := by
  unfold memWrite; dsimp only; split <;> rfl

/-! ### Sums -/

/-- A 16-bit sum with a sign-extended offset is the integer sum modulo 65536 (R74, R75). -/
theorem toNat_add_sext (v : Word) {n : Nat} (off : BitVec n) (h : n ≤ 16) :
    ((v + sext off).toNat : Int) = ((v.toNat : Int) + off.toInt) % 65536 := by
  have h1 : (sext off).toInt = off.toInt := BitVec.toInt_signExtend_of_le h
  rw [← h1, BitVec.toInt_eq_toNat_cond, BitVec.toNat_add]
  have := (sext off).isLt
  have := v.isLt
  split <;> omega

/-! ### The fields of psr -/

theorem psrWithFlags_flags (psr : Word) (f : BitVec 3) : psrFlags (psrWithFlags psr f) = f := by
  ext i hi; interval_cases i <;> simp [psrFlags, psrWithFlags]

/-- A flag update keeps bits 15:3 (R19). -/
theorem psrWithFlags_getLsbD (psr : Word) (f : BitVec 3) (k : Nat) (h : 3 ≤ k) (hk : k < 16) :
    (psrWithFlags psr f).getLsbD k = psr.getLsbD k := by
  interval_cases k <;> simp [psrWithFlags]

theorem psrToSupervisor_getLsbD (psr : Word) (k : Nat) (hk : k < 15) :
    (psrToSupervisor psr).getLsbD k = psr.getLsbD k := by
  interval_cases k <;> simp [psrToSupervisor]

theorem psrToSupervisor_mode (psr : Word) : psrMode (psrToSupervisor psr) = .supervisor := by
  simp [psrToSupervisor, psrMode]

theorem psrWithPriority_priority (psr : Word) (pri : BitVec 3) : psrPriority (psrWithPriority psr pri) = pri := by
  ext i hi; interval_cases i <;> simp [psrPriority, psrWithPriority]

/-- Setting the priority keeps the other bits (R180 step 5). -/
theorem psrWithPriority_getLsbD (psr : Word) (pri : BitVec 3) (k : Nat) (h : k < 8 ∨ 11 ≤ k) (hk : k < 16) :
    (psrWithPriority psr pri).getLsbD k = psr.getLsbD k := by
  interval_cases k <;> simp_all [psrWithPriority]

end Sys2Proof.Machine
end

