-- ==== Sys2Proof/Laws/Cycle.lean ====
section
/-! SUPPORT. The cycle driver and INTERRUPT: what the fetch, the poll, START and CLOCK do, said once. -/

namespace Sys2Proof.Machine

open Sys2Proof

/-! ### The fetch -/

@[simp] theorem fetchEffect_pc (s : State) : (fetchEffect s).pc = s.pc + 1 := by simp [fetchEffect]
@[simp] theorem fetchEffect_psr (s : State) : (fetchEffect s).psr = s.psr := by simp [fetchEffect]
@[simp] theorem fetchEffect_savedUsp (s : State) : (fetchEffect s).savedUsp = s.savedUsp := by simp [fetchEffect]
@[simp] theorem fetchEffect_savedSsp (s : State) : (fetchEffect s).savedSsp = s.savedSsp := by simp [fetchEffect]
@[simp] theorem fetchEffect_ie (s : State) : (fetchEffect s).ie = s.ie := by simp [fetchEffect]
@[simp] theorem fetchEffect_halted (s : State) : (fetchEffect s).halted = s.halted := by simp [fetchEffect]
@[simp] theorem fetchEffect_displayValid (s : State) : (fetchEffect s).displayValid = s.displayValid := by
  simp [fetchEffect]
@[simp] theorem fetchEffect_displayValue (s : State) : (fetchEffect s).displayValue = s.displayValue := by
  simp [fetchEffect]
@[simp] theorem fetchEffect_mem (s : State) : (fetchEffect s).mem = s.mem := by simp [fetchEffect]
@[simp] theorem fetchEffect_reg (s : State) (i : Reg) : (fetchEffect s).reg i = s.reg i := by simp [fetchEffect]
@[simp] theorem fetchEffect_cell (s : State) (a : Word) : (fetchEffect s).cell a = s.cell a := by simp [fetchEffect]
theorem fetchEffect_keyboardReady (s : State) :
    (fetchEffect s).keyboardReady = if s.pc = Config.kbdrAddr then false else s.keyboardReady := by
  simp [fetchEffect, memReadEffect_keyboardReady]

/-! ### The poll -/

/-- The run bit is bit 15 of the MCR cell (R55). -/
theorem runBit_eq (s : State) : runBit s = (s.cell Config.mcrAddr).getLsbD 15 := by
  unfold runBit Params.mcrRunMask
  generalize s.cell Config.mcrAddr = v
  by_cases h : v.getLsbD 15 = true
  · rw [h, bne_iff_ne]
    intro e
    have := congrArg (fun w : Word => w.getLsbD 15) e
    simp at this h
    simp [this] at h
  · have h' : v.getLsbD 15 = false := by simpa using h
    rw [h']
    have : v &&& 0x8000#16 = 0x0000#16 := by
      ext k hk
      interval_cases k <;> simp_all
    simp [this]

/-- Everything the poll can do (R93). -/
theorem poll_cases (s : State) :
    (s.displayValid = true ∧ poll s = (s.clearDisplay, .char s.displayValue)) ∨
    (s.displayValid = false ∧ runBit s = true ∧ poll s = (s, .none)) ∨
    (s.displayValid = false ∧ runBit s = false ∧ poll s = (s.setHalted true, .halt)) := by
  unfold poll
  cases h : s.displayValid <;> cases h' : runBit s <;> simp

@[simp] theorem poll_pc (s : State) : (poll s).1.pc = s.pc := by
  rcases poll_cases s with ⟨_, h⟩ | ⟨_, _, h⟩ | ⟨_, _, h⟩ <;> simp [h]
@[simp] theorem poll_psr (s : State) : (poll s).1.psr = s.psr := by
  rcases poll_cases s with ⟨_, h⟩ | ⟨_, _, h⟩ | ⟨_, _, h⟩ <;> simp [h]
@[simp] theorem poll_savedUsp (s : State) : (poll s).1.savedUsp = s.savedUsp := by
  rcases poll_cases s with ⟨_, h⟩ | ⟨_, _, h⟩ | ⟨_, _, h⟩ <;> simp [h]
@[simp] theorem poll_savedSsp (s : State) : (poll s).1.savedSsp = s.savedSsp := by
  rcases poll_cases s with ⟨_, h⟩ | ⟨_, _, h⟩ | ⟨_, _, h⟩ <;> simp [h]
@[simp] theorem poll_ie (s : State) : (poll s).1.ie = s.ie := by
  rcases poll_cases s with ⟨_, h⟩ | ⟨_, _, h⟩ | ⟨_, _, h⟩ <;> simp [h]
@[simp] theorem poll_keyboardReady (s : State) : (poll s).1.keyboardReady = s.keyboardReady := by
  rcases poll_cases s with ⟨_, h⟩ | ⟨_, _, h⟩ | ⟨_, _, h⟩ <;> simp [h]
@[simp] theorem poll_mem (s : State) : (poll s).1.mem = s.mem := by
  rcases poll_cases s with ⟨_, h⟩ | ⟨_, _, h⟩ | ⟨_, _, h⟩ <;> simp [h]
@[simp] theorem poll_reg (s : State) (i : Reg) : (poll s).1.reg i = s.reg i := by
  rcases poll_cases s with ⟨_, h⟩ | ⟨_, _, h⟩ | ⟨_, _, h⟩ <;> simp [h]
@[simp] theorem poll_cell (s : State) (a : Word) : (poll s).1.cell a = s.cell a := by
  rcases poll_cases s with ⟨_, h⟩ | ⟨_, _, h⟩ | ⟨_, _, h⟩ <;> simp [h]

/-! ### CLOCK -/

/-- Everything a CLOCK that ends in a state can have done: the poll of the state itself when halted, else the poll of the
state the fetched instruction leaves (R92). -/
theorem clock_cases {s t : State} {e : Event} (h : clock s = .next (t, e)) :
    (s.halted = true ∧ poll s = (t, e)) ∨
    (s.halted = false ∧ ∃ u, exec (decode (fetchWord s)) (fetchEffect s) = .next u ∧ poll u = (t, e)) := by
  unfold clock at h
  cases hh : s.halted
  · right
    refine ⟨rfl, ?_⟩
    simp only [hh, runInstruction] at h
    cases hr : exec (decode (fetchWord s)) (fetchEffect s) with
    | next u =>
      rw [hr] at h
      exact ⟨u, rfl, by simpa using h⟩
    | fault f => cases f
    | refused r => rw [hr] at h; cases h
  · left
    refine ⟨rfl, ?_⟩
    simpa [hh] using h

/-- A step is the state part of a CLOCK. -/
theorem step_eq_next_iff {s t : State} : step s = .next t ↔ ∃ e, clock s = .next (t, e) := by
  unfold step clockState
  cases h : clock s with
  | next p => obtain ⟨u, e⟩ := p; simp
  | fault f => cases f
  | refused r => simp

/-- No instruction ends in a fault or a refusal: `exec` always answers a next state (R7). -/
theorem exec_answers_next (i : Instr) (s : State) : ∃ t, exec i s = .next t := by
  cases i
  case br => simp only [exec, execBr]; split <;> exact ⟨_, rfl⟩
  case rti => simp only [exec, execRti]; split <;> exact ⟨_, rfl⟩
  all_goals exact ⟨_, rfl⟩

/-- A CLOCK of a running core, in terms of what its instruction leaves. -/
theorem clock_of_exec {s u : State} (hh : s.halted = false)
    (h : exec (decode (fetchWord s)) (fetchEffect s) = .next u) : clock s = .next (poll u) := by
  simp [clock, hh, runInstruction, h]

/-- A step of a running core, in terms of what its instruction leaves. -/
theorem step_of_exec {s u : State} (hh : s.halted = false)
    (h : exec (decode (fetchWord s)) (fetchEffect s) = .next u) : step s = .next (poll u).1 := by
  simp [step, clockState, clock_of_exec hh h]

/-- Everything a step can have done (R92, R97). -/
theorem step_cases {s t : State} (h : step s = .next t) :
    (s.halted = true ∧ t = (poll s).1) ∨
    (s.halted = false ∧ ∃ u, exec (decode (fetchWord s)) (fetchEffect s) = .next u ∧ t = (poll u).1) := by
  obtain ⟨e, he⟩ := step_eq_next_iff.mp h
  rcases clock_cases he with ⟨a, b⟩ | ⟨a, u, b, c⟩
  · exact .inl ⟨a, by rw [b]⟩
  · exact .inr ⟨a, u, b, by rw [c]⟩

/-! ### The display latch -/

/-- What stands of a character pending in `s₀`: the latch of `t` is full, with that character or with the last word written
to DDR (R26, R52). -/
def StillPending (s₀ t : State) : Prop :=
  t.displayValid = true ∧ (t.displayValue = s₀.displayValue ∨ t.cell Config.ddrAddr = t.displayValue)

theorem memWrite_pending {s₀ s : State} (a v : Word) (h : StillPending s₀ s) : StillPending s₀ (memWrite a v s) := by
  by_cases ha : a = Config.ddrAddr
  · simp [StillPending, memWrite_displayValid, memWrite_displayValue, memWrite_cell, ha]
  · simpa [StillPending, memWrite_displayValid, memWrite_displayValue, memWrite_cell, ha] using h

theorem exceptionEntry_pending {s₀ s : State} (code : BitVec 8) (h : StillPending s₀ s) :
    StillPending s₀ (exceptionEntry code s) := by
  have := memWrite_pending (s.savedSsp - 1 - 1) s.pc (memWrite_pending (s.savedSsp - 1) s.psr h)
  simpa [StillPending, exceptionEntry, contextSave, push, jumpThrough, memWrite_displayValid, memWrite_displayValue,
    memWrite_cell] using this

/-- No instruction empties the display latch; only a write to DDR replaces what it holds. -/
theorem exec_pending {s₀ s t : State} {i : Instr} (h : exec i s = .next t) (hp : StillPending s₀ s) : StillPending s₀ t := by
  cases i
  case br => simp only [exec, execBr] at h; split at h <;> cases h <;> exact hp
  case rti =>
    simp only [exec, execRti] at h
    split at h <;> cases h
    · exact exceptionEntry_pending _ hp
    · simpa [StillPending] using hp
  case reserved => cases h; exact exceptionEntry_pending _ hp
  case st => cases h; exact memWrite_pending _ _ hp
  case str => cases h; exact memWrite_pending _ _ hp
  case sti => cases h; exact memWrite_pending _ _ (by simpa [StillPending] using hp)
  all_goals (cases h; simpa [StillPending] using hp)

/-! ### INTERRUPT -/

/-- Everything INTERRUPT can do (R180). -/
theorem interrupt_cases (vec : BitVec 8) (pri : BitVec 3) (data : Word) (s : State) :
    (s.ie = false ∧ interrupt vec pri data s = (s, .rejected .disabled)) ∨
    (s.ie = true ∧ pri.toNat ≤ s.priority.toNat ∧ interrupt vec pri data s = (s, .rejected .priorityTooLow)) ∨
    (s.ie = true ∧ s.priority.toNat < pri.toNat ∧
      interrupt vec pri data s = (interruptEntry vec pri data s, .serviced pri)) := by
  unfold interrupt
  cases h : s.ie
  · simp
  · by_cases hp : pri.toNat ≤ s.priority.toNat
    · simp [hp]
    · have : s.priority.toNat < pri.toNat := by omega
      simp [hp, this]

theorem interruptEntry_wf (vec : BitVec 8) (pri : BitVec 3) (data : Word) {s : State} (h : Memory.wf s.mem) :
    Memory.wf (interruptEntry vec pri data s).mem := by
  simpa [interruptEntry] using contextSave_wf (s := (memWrite Config.kbdrAddr data s).setKeyboardReady true)
    (by simpa using memWrite_wf _ data h)

end Sys2Proof.Machine
end

