-- ==== Sys2Proof/Laws/PerInstr.lean ====
section
/-! SUPPORT. The per-instruction family `EncodeMatchesRow` of LAWS.json: the encoder gives every instruction the fixed bits of
its own row of spec/opcode_table.json, whatever its operands, and its ignored bits their conventional values (R73, R81). -/

namespace Sys2Proof.Laws.EncodeMatchesRow

open Sys2Proof

/-- The word of `i` matches the row of `i` and is well formed. -/
def Statement (i : Instr) : Prop :=
  (∀ r ∈ opcodeTable[rowIndex i]?, encode i &&& r.mask = r.pattern) ∧ wellFormedWord (encode i) = true

/-- Two words are equal when their bits are, one by one. -/
theorem word_ext {v w : Word} (h : ∀ k < 16, v.getLsbD k = w.getLsbD k) : v = w := by
  ext k hk; simpa [BitVec.getLsbD_eq_getElem hk] using h k hk

theorem br (nzp : BitVec 3) (off : BitVec 9) : Statement (.br nzp off) := by
  refine ⟨fun r hr => ?_, ?_⟩
  · obtain rfl : _ = r := by simpa [rowIndex, opcodeTable] using hr
    refine word_ext fun k hk => ?_
    interval_cases k <;> simp [encode, place]
  · rw [wellFormedWord, beq_iff_eq]
    refine word_ext fun k hk => ?_
    interval_cases k <;> simp [encode, place, usedBits, conventionalFill]

theorem addReg (dr sr1 sr2 : Reg) : Statement (.addReg dr sr1 sr2) := by
  refine ⟨fun r hr => ?_, ?_⟩
  · obtain rfl : _ = r := by simpa [rowIndex, opcodeTable] using hr
    refine word_ext fun k hk => ?_
    interval_cases k <;> simp [encode, place]
  · rw [wellFormedWord, beq_iff_eq]
    refine word_ext fun k hk => ?_
    interval_cases k <;> simp [encode, place, usedBits, conventionalFill]

theorem addImm (dr sr1 : Reg) (imm5 : BitVec 5) : Statement (.addImm dr sr1 imm5) := by
  refine ⟨fun r hr => ?_, ?_⟩
  · obtain rfl : _ = r := by simpa [rowIndex, opcodeTable] using hr
    refine word_ext fun k hk => ?_
    interval_cases k <;> simp [encode, place]
  · rw [wellFormedWord, beq_iff_eq]
    refine word_ext fun k hk => ?_
    interval_cases k <;> simp [encode, place, usedBits, conventionalFill]

theorem andReg (dr sr1 sr2 : Reg) : Statement (.andReg dr sr1 sr2) := by
  refine ⟨fun r hr => ?_, ?_⟩
  · obtain rfl : _ = r := by simpa [rowIndex, opcodeTable] using hr
    refine word_ext fun k hk => ?_
    interval_cases k <;> simp [encode, place]
  · rw [wellFormedWord, beq_iff_eq]
    refine word_ext fun k hk => ?_
    interval_cases k <;> simp [encode, place, usedBits, conventionalFill]

theorem andImm (dr sr1 : Reg) (imm5 : BitVec 5) : Statement (.andImm dr sr1 imm5) := by
  refine ⟨fun r hr => ?_, ?_⟩
  · obtain rfl : _ = r := by simpa [rowIndex, opcodeTable] using hr
    refine word_ext fun k hk => ?_
    interval_cases k <;> simp [encode, place]
  · rw [wellFormedWord, beq_iff_eq]
    refine word_ext fun k hk => ?_
    interval_cases k <;> simp [encode, place, usedBits, conventionalFill]

theorem not (dr sr : Reg) : Statement (.not dr sr) := by
  refine ⟨fun r hr => ?_, ?_⟩
  · obtain rfl : _ = r := by simpa [rowIndex, opcodeTable] using hr
    refine word_ext fun k hk => ?_
    interval_cases k <;> simp [encode, place]
  · rw [wellFormedWord, beq_iff_eq]
    refine word_ext fun k hk => ?_
    interval_cases k <;> simp [encode, place, usedBits, conventionalFill]

theorem ld (dr : Reg) (off : BitVec 9) : Statement (.ld dr off) := by
  refine ⟨fun r hr => ?_, ?_⟩
  · obtain rfl : _ = r := by simpa [rowIndex, opcodeTable] using hr
    refine word_ext fun k hk => ?_
    interval_cases k <;> simp [encode, place]
  · rw [wellFormedWord, beq_iff_eq]
    refine word_ext fun k hk => ?_
    interval_cases k <;> simp [encode, place, usedBits, conventionalFill]

theorem ldi (dr : Reg) (off : BitVec 9) : Statement (.ldi dr off) := by
  refine ⟨fun r hr => ?_, ?_⟩
  · obtain rfl : _ = r := by simpa [rowIndex, opcodeTable] using hr
    refine word_ext fun k hk => ?_
    interval_cases k <;> simp [encode, place]
  · rw [wellFormedWord, beq_iff_eq]
    refine word_ext fun k hk => ?_
    interval_cases k <;> simp [encode, place, usedBits, conventionalFill]

theorem ldr (dr baseR : Reg) (off : BitVec 6) : Statement (.ldr dr baseR off) := by
  refine ⟨fun r hr => ?_, ?_⟩
  · obtain rfl : _ = r := by simpa [rowIndex, opcodeTable] using hr
    refine word_ext fun k hk => ?_
    interval_cases k <;> simp [encode, place]
  · rw [wellFormedWord, beq_iff_eq]
    refine word_ext fun k hk => ?_
    interval_cases k <;> simp [encode, place, usedBits, conventionalFill]

theorem lea (dr : Reg) (off : BitVec 9) : Statement (.lea dr off) := by
  refine ⟨fun r hr => ?_, ?_⟩
  · obtain rfl : _ = r := by simpa [rowIndex, opcodeTable] using hr
    refine word_ext fun k hk => ?_
    interval_cases k <;> simp [encode, place]
  · rw [wellFormedWord, beq_iff_eq]
    refine word_ext fun k hk => ?_
    interval_cases k <;> simp [encode, place, usedBits, conventionalFill]

theorem st (sr : Reg) (off : BitVec 9) : Statement (.st sr off) := by
  refine ⟨fun r hr => ?_, ?_⟩
  · obtain rfl : _ = r := by simpa [rowIndex, opcodeTable] using hr
    refine word_ext fun k hk => ?_
    interval_cases k <;> simp [encode, place]
  · rw [wellFormedWord, beq_iff_eq]
    refine word_ext fun k hk => ?_
    interval_cases k <;> simp [encode, place, usedBits, conventionalFill]

theorem sti (sr : Reg) (off : BitVec 9) : Statement (.sti sr off) := by
  refine ⟨fun r hr => ?_, ?_⟩
  · obtain rfl : _ = r := by simpa [rowIndex, opcodeTable] using hr
    refine word_ext fun k hk => ?_
    interval_cases k <;> simp [encode, place]
  · rw [wellFormedWord, beq_iff_eq]
    refine word_ext fun k hk => ?_
    interval_cases k <;> simp [encode, place, usedBits, conventionalFill]

theorem str (sr baseR : Reg) (off : BitVec 6) : Statement (.str sr baseR off) := by
  refine ⟨fun r hr => ?_, ?_⟩
  · obtain rfl : _ = r := by simpa [rowIndex, opcodeTable] using hr
    refine word_ext fun k hk => ?_
    interval_cases k <;> simp [encode, place]
  · rw [wellFormedWord, beq_iff_eq]
    refine word_ext fun k hk => ?_
    interval_cases k <;> simp [encode, place, usedBits, conventionalFill]

theorem jmp (baseR : Reg) : Statement (.jmp baseR) := by
  refine ⟨fun r hr => ?_, ?_⟩
  · obtain rfl : _ = r := by simpa [rowIndex, opcodeTable] using hr
    refine word_ext fun k hk => ?_
    interval_cases k <;> simp [encode, place]
  · rw [wellFormedWord, beq_iff_eq]
    refine word_ext fun k hk => ?_
    interval_cases k <;> simp [encode, place, usedBits, conventionalFill]

theorem jsr (off : BitVec 11) : Statement (.jsr off) := by
  refine ⟨fun r hr => ?_, ?_⟩
  · obtain rfl : _ = r := by simpa [rowIndex, opcodeTable] using hr
    refine word_ext fun k hk => ?_
    interval_cases k <;> simp [encode, place]
  · rw [wellFormedWord, beq_iff_eq]
    refine word_ext fun k hk => ?_
    interval_cases k <;> simp [encode, place, usedBits, conventionalFill]

theorem jsrr (baseR : Reg) : Statement (.jsrr baseR) := by
  refine ⟨fun r hr => ?_, ?_⟩
  · obtain rfl : _ = r := by simpa [rowIndex, opcodeTable] using hr
    refine word_ext fun k hk => ?_
    interval_cases k <;> simp [encode, place]
  · rw [wellFormedWord, beq_iff_eq]
    refine word_ext fun k hk => ?_
    interval_cases k <;> simp [encode, place, usedBits, conventionalFill]

theorem trap (vect : BitVec 8) : Statement (.trap vect) := by
  refine ⟨fun r hr => ?_, ?_⟩
  · obtain rfl : _ = r := by simpa [rowIndex, opcodeTable] using hr
    refine word_ext fun k hk => ?_
    interval_cases k <;> simp [encode, place]
  · rw [wellFormedWord, beq_iff_eq]
    refine word_ext fun k hk => ?_
    interval_cases k <;> simp [encode, place, usedBits, conventionalFill]

theorem rti : Statement .rti := by
  refine ⟨?_, ?_⟩ <;> decide

theorem reserved : Statement .reserved := by
  refine ⟨?_, ?_⟩ <;> decide

end Sys2Proof.Laws.EncodeMatchesRow
end

