-- ==== Sys2Proof/Tests/Slice0.lean ====
section
/-! SUPPORT. The model's own tests. Expected results are the vectors of spec/95_test_vectors.md (V<n>, named in each test) and
words written out from the formats of R73; then the witnesses: for every statement with hypotheses, concrete values that
meet them, each clause at a boundary of its range. -/

namespace Sys2Proof.Machine.Test

open Sys2Proof Sys2Proof.Machine

/-- The setup of a "single-instruction vector" (95_test_vectors.md section 0): RESET, the host's writes, START. -/
def running (pc psr : Word) (cells : List (Word × Word)) (regs : List (Reg × Word)) : State :=
  let s := (State.reset.setPc pc).setPsr psr
  let s := cells.foldl (fun s c => s.setCell c.1 c.2) s
  let s := regs.foldl (fun s r => s.setReg r.1 r.2) s
  start s

/-- The state after one step. -/
def after (s : State) : State :=
  match step s with
  | .next t => t
  | .refused _ => State.reset

/-- The event of one CLOCK. -/
def eventOf (s : State) : Option Event :=
  match clock s with
  | .next (_, e) => some e
  | .refused _ => none

/-! ### Decoding: words of 95_test_vectors.md, and the unused-bit examples of R77 -/

theorem test_decode_br : decode 0x0C05 = .br 0b110 5 := by decide
theorem test_decode_add_reg : decode 0x1283 = .addReg 1 2 3 := by decide
theorem test_decode_add_reg_ignored : decode 0x1018 = .addReg 0 0 0 := by decide
theorem test_decode_add_imm : decode 0x12AF = .addImm 1 2 0b01111 := by decide
theorem test_decode_and_reg : decode 0x5042 = .andReg 0 1 2 := by decide
theorem test_decode_and_imm : decode 0x54F0 = .andImm 2 3 0b10000 := by decide
theorem test_decode_not : decode 0x91FF = .not 0 7 := by decide
theorem test_decode_not_ignored : decode 0x9000 = .not 0 0 := by decide
theorem test_decode_ld : decode 0x23FF = .ld 1 0x1FF := by decide
theorem test_decode_ldi : decode 0xA002 = .ldi 0 2 := by decide
theorem test_decode_ldr : decode 0x62B4 = .ldr 1 2 0b110100 := by decide
theorem test_decode_lea : decode 0xEEFF = .lea 7 255 := by decide
theorem test_decode_st : decode 0x37FE = .st 3 0x1FE := by decide
theorem test_decode_sti : decode 0xB202 = .sti 1 2 := by decide
theorem test_decode_str : decode 0x73BF = .str 1 6 0x3F := by decide
theorem test_decode_jmp : decode 0xC080 = .jmp 2 := by decide
theorem test_decode_jmp_ignored : decode 0xCFFF = .jmp 7 := by decide
theorem test_decode_jsr : decode 0x4BFF = .jsr 1023 := by decide
theorem test_decode_jsrr : decode 0x4080 = .jsrr 2 := by decide
theorem test_decode_jsrr_ignored : decode 0x4600 = .jsrr 0 := by decide
theorem test_decode_trap : decode 0xF0FF = .trap 0xFF := by decide
theorem test_decode_trap_ignored : decode 0xFF25 = .trap 0x25 := by decide
theorem test_decode_rti : decode 0x8FFF = .rti := by decide
theorem test_decode_reserved : decode 0xDABC = .reserved := by decide
theorem test_decodeTableWord : decodeTableWord 16 0xC1C0 = some (.jmp 7) ∧ decodeTableWord 24 0xC1C0 = none := by decide
theorem test_decodeBits_names_its_refusal : decodeBits 32 0 = .error (.longerThanOneCell 32) := by decide

/-! ### WellFormed: an ill-formed word for each check, refused; a well-formed one, accepted -/

theorem test_wf_add_bits_4_3 : wellFormedWord 0x1018 = false ∧ wellFormedWord 0x1000 = true := by decide
theorem test_wf_and_bits_4_3 : wellFormedWord 0x5008 = false ∧ wellFormedWord 0x5018 = false := by decide
theorem test_wf_not_bits_5_0 : wellFormedWord 0x9000 = false ∧ wellFormedWord 0x96BF = true := by decide
theorem test_wf_jmp_bits_11_9 : wellFormedWord 0xC200 = false ∧ wellFormedWord 0xC1C0 = true := by decide
theorem test_wf_jmp_bits_5_0 : wellFormedWord 0xC001 = false := by decide
theorem test_wf_jsrr_bits_10_9 : wellFormedWord 0x4600 = false ∧ wellFormedWord 0x4080 = true := by decide
theorem test_wf_jsrr_bits_5_0 : wellFormedWord 0x4020 = false ∧ wellFormedWord 0x4820 = true := by decide
theorem test_wf_trap_bits_11_8 : wellFormedWord 0xFF25 = false ∧ wellFormedWord 0xF025 = true := by decide
theorem test_wf_rti_bits_11_0 : wellFormedWord 0x8FFF = false ∧ wellFormedWord 0x8000 = true := by decide
theorem test_wf_reserved_bits_11_0 : wellFormedWord 0xD001 = false ∧ wellFormedWord 0xD000 = true := by decide

/-! ### Operands and flags: V20 to V28 -/

theorem test_sext_V21_V24_V25 : sext 0b10000#5 = 0xFFF0 ∧ sext 0x100#9 = 0xFF00 ∧ sext 0x3FF#11 = 0x03FF := by decide
theorem test_sext_V1 : sext 0b110100#6 = 0xFFF4 ∧ zext 0xFF#8 = 0x00FF := by decide
theorem test_conditionOf_V27 : [0x0000#16, 0x0001, 0x7FFF, 0x8000, 0xFFFF].map conditionOf = [0b010, 0b001, 0b001, 0b100, 0b100] := by
  decide
theorem test_setcc_V28 : ((State.reset.setPsr 0x8702).setcc 0xFFFF).psr = 0x8704 := by decide

/-! ### Operate instructions: V30 to V44 -/

theorem test_add_reg_V31 : let t := after (running 0x3000 0x8000 [(0x3000, 0x1000)] [(0, 0x8000)])
    t.reg 0 = 0x0000 ∧ t.psr = 0x8002 ∧ t.pc = 0x3001 := by decide
theorem test_add_imm_V34 : let t := after (running 0x3000 0x8000 [(0x3000, 0x1970)] [(5, 0x0010)])
    t.reg 4 = 0x0000 ∧ t.psr = 0x8002 := by decide
theorem test_add_imm_V2 : let t := after (running 0x3000 0x0000 [(0x3000, 0x12AF)] [(2, 100)])
    t.reg 1 = 115 ∧ t.psr = 0x0001 ∧ t.pc = 0x3001 := by decide
theorem test_and_reg_V41 : let t := after (running 0x3000 0x8000 [(0x3000, 0x5283)] [(2, 0xF0F0), (3, 0x8FF0)])
    t.reg 1 = 0x80F0 ∧ t.psr = 0x8004 := by decide
theorem test_and_imm_V39 : let t := after (running 0x3000 0x8000 [(0x3000, 0x54F0)] [(3, 0xABCD)])
    t.reg 2 = 0xABC0 ∧ t.psr = 0x8004 := by decide
theorem test_not_V43 : let t := after (running 0x3000 0x8000 [(0x3000, 0x91FF)] [(7, 0x8000)])
    t.reg 0 = 0x7FFF ∧ t.psr = 0x8001 := by decide

/-! ### Data movement: V46 to V68 -/

theorem test_ld_V46 : let t := after (running 0xFFFF 0x8000 [(0xFFFF, 0x2000), (0x0000, 0x1234)] [])
    t.reg 0 = 0x1234 ∧ t.psr = 0x8001 ∧ t.pc = 0x0000 := by decide
theorem test_ld_V48 : let t := after (running 0x3100 0x8000 [(0x3100, 0x2500), (0x3001, 0x8001)] [])
    t.reg 2 = 0x8001 ∧ t.psr = 0x8004 := by decide
theorem test_ldi_V49 : let t := after ((running 0x4000 0x8000 [(0x4000, 0xA200), (0x4001, 0xFE00)] []).setKeyboardReady true)
    t.reg 1 = 0x8000 ∧ t.psr = 0x8004 ∧ t.keyboardReady = true := by decide
theorem test_ldi_V52 :
    let s := (running 0x0200 0x0400 [(0x0200, 0xA002), (0x0203, 0xFE02), (0xFE02, 0x0061)] []).setKeyboardReady true
    let t := after s
    t.reg 0 = 0x0061 ∧ t.psr = 0x0401 ∧ t.keyboardReady = false := by decide
theorem test_ldr_V53 : let t := after (running 0x3000 0x8000 [(0x3000, 0x62B4), (0x3FF4, 0x8001)] [(2, 0x4000)])
    t.reg 1 = 0x8001 ∧ t.psr = 0x8004 := by decide
theorem test_ldr_V54 : let t := after (running 0x3000 0x8000 [(0x3000, 0x619F), (0x000F, 0x00AA)] [(6, 0xFFF0)])
    t.reg 0 = 0x00AA ∧ t.psr = 0x8001 ∧ t.reg 6 = 0xFFF0 := by decide
theorem test_lea_V57 : let t := after (running 0x7F80 0x8000 [(0x7F80, 0xEEFF)] [])
    t.reg 7 = 0x8080 ∧ t.psr = 0x8004 ∧ t.pc = 0x7F81 := by decide
theorem test_lea_V58 : let t := after (running 0x0000 0x8000 [(0x0000, 0xE1FF)] [])
    t.reg 0 = 0x0000 ∧ t.psr = 0x8002 := by decide
theorem test_st_V60 : let t := after (running 0x3010 0x8001 [(0x3010, 0x37FE)] [(3, 0xCAFE)])
    t.cell 0x300F = 0xCAFE ∧ t.psr = 0x8001 ∧ t.pc = 0x3011 := by decide
theorem test_sti_V67 : let s := running 0x3000 0x8000 [(0x3000, 0xB005), (0x3006, 0xFE06)] [(0, 0x0041)]
    eventOf s = some (.char 0x0041) ∧ (after s).cell 0xFE06 = 0x0041 ∧ (after s).displayValid = false := by decide
theorem test_sti_V4a : let s := running 0x3000 0x8000 [(0x3000, 0xB001), (0x3002, 0xFFFE)] []
    eventOf s = some .halt ∧ (after s).halted = true ∧ (after s).pc = 0x3001 ∧ (after s).cell 0xFFFE = 0 := by decide
theorem test_str_V61 : let t := after (running 0x3000 0x8000 [(0x3000, 0x7481)] [(2, 0x6000)])
    t.cell 0x6001 = 0x6000 ∧ t.reg 2 = 0x6000 := by decide
theorem test_str_V65 : let s := running 0x3000 0x8000 [(0x3000, 0x7040)] [(0, 0x7FFF), (1, 0xFFFE)]
    eventOf s = some .halt ∧ (after s).cell 0xFFFE = 0x7FFF ∧ (after s).halted = true := by decide

/-! ### Control: V70 to V87 -/

theorem test_br_V71 : (after (running 0xFFF0 0x8001 [(0xFFF0, 0x02FF)] [])).pc = 0x00F0 := by decide
theorem test_br_V74 : (after (running 0x3000 0x8000 [(0x3000, 0x0E01)] [])).pc = 0x3001 := by decide
theorem test_jmp_V79 : (after (running 0x3000 0x8000 [(0x3000, 0xCFFF)] [(7, 0x1234)])).pc = 0x1234 := by decide
theorem test_jsr_V81 : let t := after (running 0x3400 0x8000 [(0x3400, 0x4C00)] [])
    t.reg 7 = 0x3401 ∧ t.pc = 0x3001 := by decide
theorem test_jsrr_V83 : let t := after (running 0x3000 0x8000 [(0x3000, 0x4080)] [(2, 0x4000)])
    t.reg 7 = 0x3001 ∧ t.pc = 0x4000 := by decide
theorem test_jsrr_V84 : let t := after (running 0x3000 0x8000 [(0x3000, 0x41C0)] [(7, 0x5000)])
    t.reg 7 = 0x3001 ∧ t.pc = 0x3001 := by decide
theorem test_trap_V86 : let t := after (running 0x3000 0x8302 [(0x3000, 0xF0FF), (0x00FF, 0x0500)] [])
    t.reg 7 = 0x3001 ∧ t.pc = 0x0500 ∧ t.psr = 0x8302 ∧ t.reg 6 = 0 := by decide

/-! ### RTI and the illegal opcode: V100 to V104 -/

/-- The state of V100: RTI in user mode. -/
def v100 : State :=
  (running 0x3000 0x8002 [(0x3000, 0x8000), (0x0100, 0x0410)] [(6, 0xF000)]).setSavedSsp 0x3000
/-- The state of V101: RTI in supervisor mode. -/
def v101 : State :=
  ((running 0x0202 0x0401 [(0x0202, 0x8000), (0x2FFE, 0x3000), (0x2FFF, 0x8002)] [(6, 0x2FFE)]).setSavedUsp 0xF000).setSavedSsp
    0x3000
/-- The state of V104: opcode 1101 in supervisor mode. -/
def v104 : State :=
  (running 0x0250 0x0301 [(0x0250, 0xD000), (0x0101, 0x0400)] [(6, 0x2F00)]).setSavedSsp 0x3000

theorem test_rti_user_V100 : let t := after v100
    t.savedUsp = 0xF000 ∧ t.cell 0x2FFF = 0x8002 ∧ t.cell 0x2FFE = 0x3001 ∧ t.reg 6 = 0x2FFE ∧ t.psr = 0x0002 ∧
      t.pc = 0x0410 ∧ t.savedSsp = 0x3000 ∧ eventOf v100 = some .none := by decide
theorem test_rti_supervisor_V101 : let t := after v101
    t.pc = 0x3000 ∧ t.psr = 0x8002 ∧ t.savedSsp = 0x3000 ∧ t.reg 6 = 0xF000 ∧ t.savedUsp = 0xF000 ∧ t.mem = v101.mem := by decide
theorem test_reserved_V104 : let t := after v104
    t.savedUsp = 0x2F00 ∧ t.reg 6 = 0x2FFE ∧ t.cell 0x2FFF = 0x0301 ∧ t.cell 0x2FFE = 0x0251 ∧ t.psr = 0x0301 ∧
      t.pc = 0x0400 := by decide

/-! ### INTERRUPT: V110 to V118 -/

/-- The state of V113. -/
def v113 : State :=
  ((running 0x3000 0x8002 [(0x0180, 0x0200)] [(6, 0xF000)]).setSavedSsp 0x3000).setIe true

theorem test_interrupt_V110 : interrupt 0x80 7 0x61 State.reset = (State.reset, .rejected .disabled) := by decide
theorem test_interrupt_V111 : interrupt 0x80 4 0x62 (v113.setPsr 0x0402) = (v113.setPsr 0x0402, .rejected .priorityTooLow) := by
  decide
theorem test_interrupt_V113 : let p := interrupt 0x80 4 0x61 v113
    p.2 = .serviced 4 ∧ p.1.cell 0xFE02 = 0x61 ∧ p.1.keyboardReady = true ∧ p.1.savedUsp = 0xF000 ∧ p.1.cell 0x2FFF = 0x8002 ∧
      p.1.cell 0x2FFE = 0x3000 ∧ p.1.reg 6 = 0x2FFE ∧ p.1.psr = 0x0402 ∧ p.1.pc = 0x0200 := by decide
theorem test_interrupt_V118 : let p := interrupt 0x80 5 0x62 (interrupt 0x80 4 0x61 v113).1
    p.2 = .serviced 5 ∧ p.1.cell 0xFE02 = 0x62 ∧ p.1.savedUsp = 0x2FFE ∧ p.1.cell 0x2FFF = 0x0402 ∧ p.1.cell 0x2FFE = 0x0200 ∧
      p.1.reg 6 = 0x2FFE ∧ p.1.psr = 0x0502 ∧ p.1.pc = 0x0200 := by decide

/-! ### The cycle driver and the host: V120 to V128 -/

theorem test_halted_V120 : eventOf (State.reset.setPc 0x3000) = some .halt ∧
    after (State.reset.setPc 0x3000) = State.reset.setPc 0x3000 := by decide
theorem test_char_before_halt_V121 :
    let s := memWrite 0xFE06 0x41 (running 0x3000 0x8000 [(0x3000, 0xB001), (0x3001, 0x1021), (0x3002, 0xFFFE)] [])
    eventOf s = some (.char 0x41) ∧ (after s).halted = false ∧ eventOf (after s) = some .halt ∧
      (after (after s)).reg 0 = 1 ∧ (after (after s)).halted = true := by decide
theorem test_halted_polls_V122 : let s := memWrite 0xFE06 0x42 State.reset
    eventOf s = some (.char 0x42) ∧ eventOf (after s) = some .halt := by decide
theorem test_start_V123 : start State.reset = (State.reset.setHalted false).setMem [(0xFFFE, 0x8000)] := by decide
theorem test_run_bit_does_not_start_V124 : let s := memWrite 0xFFFE 0x8000 State.reset
    eventOf s = some .none ∧ after s = s := by decide
theorem test_latch_holds_one_V126 :
    eventOf (memWrite 0xFE06 0x58 (running 0x3000 0x8000 [(0x3000, 0x7040)] [(0, 0x41), (1, 0xFE06)])) = some (.char 0x41) := by
  decide
theorem test_fetch_clears_keyboard_V128 : let t := after ((running 0xFE02 0x8000 [(0xFE02, 0x0005)] []).setKeyboardReady true)
    t.keyboardReady = false ∧ t.pc = 0xFE03 := by decide
theorem test_unloaded_V105 : let t := after (running 0xFE04 0x0000 [] [])
    t.pc = 0x0000 ∧ t.psr = 0x0000 ∧ t.savedSsp = 0x0002 ∧ t.reg 6 = 0x0000 := by decide
theorem test_withFetchWord_runs : let t := after (State.reset.withFetchWord 16 0x1021)
    t.reg 0 = 1 ∧ t.pc = 1 ∧ t.halted = false := by decide
theorem test_withFetchWord_mapped_pc : let t := after ((running 0xFE04 0 [] []).withFetchWord 16 0x1021)
    t.reg 0 = 1 := by decide
theorem test_host_reg : (hostRegWrite .ie 0x0200 State.reset).ie = true ∧
    hostRegRead (.reg (.x 15)) (hostRegWrite (.x 7) 0x1234 State.reset) = 0x1234 ∧ hostRegRead .halted State.reset = 1 := by
  decide
theorem test_memory_canonical : let s := ((State.reset.setCell 9 5).setCell 3 7)
    s.mem = [(3, 7), (9, 5)] ∧ (s.setCell 3 0).mem = [(9, 5)] ∧ Memory.wf s.mem ∧ ¬ Memory.wf [(9, 5), (3, 7)] ∧
      ¬ Memory.wf [(3, 0)] ∧ ¬ Memory.wf [(65536, 1)] := by decide

/-! ### Witnesses: the hypotheses of each statement with hypotheses, met together by concrete values -/

/-- A running core about to print x[0] through `STR R0,R1,#0` with x[1] at the DDR. -/
def printing : State := running 0x3000 0x8000 [(0x3000, 0x7040)] [(0, 0x41), (1, 0xFE06)]

theorem witness_EveryStepKeepsMemoryCanonical : ∃ s t, MachineInv s ∧ step s = .next t :=
  ⟨v104, after v104, by unfold MachineInv; decide, rfl⟩
theorem witness_EveryOperationKeepsMemoryCanonical_interrupt : ∃ t r, MachineInv v113 ∧
    perform (.interrupt 0x80 7 0xFFFF) v113 = .next (t, r) := ⟨_, _, by unfold MachineInv; decide, rfl⟩
theorem witness_EveryOperationKeepsMemoryCanonical_hostMemWrite : ∃ t r, MachineInv v113 ∧
    perform (.hostMemWrite 0xFFFF 0) v113 = .next (t, r) := ⟨_, _, by unfold MachineInv; decide, rfl⟩
theorem witness_ReachableStatesAreSafe : Reachable (start State.reset) := .perform (op := .start) .reset rfl
theorem witness_CanonicalMemoriesAreEqualData : ∃ s t : State, MachineInv s ∧ MachineInv t ∧ (∀ a, s.cell a = t.cell a) ∧ s.mem ≠ [] :=
  ⟨v101, v101.setPc 0, by unfold MachineInv; decide, by unfold MachineInv; decide, fun _ => rfl, by decide⟩
theorem witness_EveryWordMatchesOneTableRow_first : ∃ r, opcodeTable[0]? = some r ∧ 0x01FF#16 &&& r.mask = r.pattern :=
  ⟨_, rfl, by decide⟩
theorem witness_EveryWordMatchesOneTableRow_last : ∃ r, opcodeTable[18]? = some r ∧ 0xDFFF#16 &&& r.mask = r.pattern :=
  ⟨_, rfl, by decide⟩
theorem witness_PlacedWordIsFetchedNext : (16 : Nat) ≤ 16 ∧ 0xFFFF < 2 ^ 16 ∧ (0 : Nat) ≤ 16 ∧ 0 < 2 ^ 0 := by decide
theorem witness_ImmediatesAreSignExtended : (0 < 1 ∧ 1 ≤ 16) ∧ (0 < 16 ∧ 16 ≤ 16) ∧
    (sext 1#1).toInt = -1 ∧ (sext 0x8000#16).toInt = -32768 := by decide

theorem witness_MemReadMapsThreeAddresses_KBSR :
    (v113.setKeyboardReady true).keyboardReady = true ∧ memReadValue 0xFE00 (v113.setKeyboardReady true) = 0x8000 ∧
      v113.keyboardReady = false ∧ memReadValue 0xFE00 v113 = 0x0000 := by decide
theorem witness_MemReadMapsThreeAddresses_KBDR_DSR :
    (memReadEffect 0xFE02 (v113.setKeyboardReady true)).keyboardReady = false ∧ memReadValue 0xFE04 v113 = 0x8000 := by decide
theorem witness_MemReadMapsThreeAddresses_neighbours :
    [0xFDFF#16, 0xFE01, 0xFE03, 0xFE05, 0xFE06, 0xFFFE, 0x0000].all
      fun a => a ≠ 0xFE00#16 ∧ a ≠ 0xFE04#16 ∧ a ≠ 0xFE02#16 := by decide

theorem witness_FlagsComeFromResultsOnly_result : ∃ t, resultRegister (.lea 7 255) = some 7 ∧ exec (.lea 7 255) v113 = .next t :=
  ⟨_, rfl, rfl⟩
theorem witness_FlagsComeFromResultsOnly_none : ∃ t, resultRegister .reserved = none ∧ Instr.reserved ≠ .rti ∧
    exec .reserved v104 = .next t := ⟨_, rfl, by decide, rfl⟩
theorem witness_FlagsComeFromResultsOnly_rti : ∃ t u, v100.mode = .user ∧ exec .rti v100 = .next t ∧
    v101.mode = .supervisor ∧ exec .rti v101 = .next u := ⟨_, _, by decide, rfl, by decide, rfl⟩

/-- The words at both ends of a format's range, for the decoding clauses of NotInvertsEveryBit, LdLoadsThePcRelativeCell,
LdiLoadsThroughThePointer, LdrLoadsTheBaseRelativeCell, LeaLoadsTheAddressAndSetsTheFlags, StStoresAtThePcRelativeAddress,
StiStoresThroughThePointer, StrStoresAtTheBaseRelativeAddress, BrBranchesOnARequestedFlag, JmpGoesToTheBaseRegister,
TrapCallsThroughItsTable and RtiReturnsInSupervisorMode. -/
theorem witness_formats_with_opcode_only : [(0b1001#4, 0x9000#16, 0x9FFF#16), (0b0000, 0x0000, 0x0FFF), (0b1000, 0x8000, 0x8FFF), (0b0010, 0x2000, 0x2FFF),
    (0b1010, 0xA000, 0xAFFF), (0b0110, 0x6000, 0x6FFF), (0b1110, 0xE000, 0xEFFF), (0b0011, 0x3000, 0x3FFF),
    (0b1011, 0xB000, 0xBFFF), (0b0111, 0x7000, 0x7FFF), (0b1100, 0xC000, 0xCFFF), (0b1111, 0xF000, 0xFFFF)].all
    fun p => p.2.1.extractLsb' 12 4 = p.1 ∧ p.2.2.extractLsb' 12 4 = p.1 := by decide
theorem witness_AddRegisterFormAddsModulo65536 : [0x1000#16, 0x1FDF].all fun ir =>
    ir.extractLsb' 12 4 = 0b0001#4 ∧ ir.getLsbD 5 = false := by decide
theorem witness_AddImmediateFormAddsTheSignedImmediate : [0x1020#16, 0x1FFF].all fun ir =>
    ir.extractLsb' 12 4 = 0b0001#4 ∧ ir.getLsbD 5 = true := by decide
theorem witness_AndRegisterFormAndsEveryBit : [0x5000#16, 0x5FDF].all fun ir =>
    ir.extractLsb' 12 4 = 0b0101#4 ∧ ir.getLsbD 5 = false := by decide
theorem witness_AndImmediateFormAndsTheSignExtendedImmediate : [0x5020#16, 0x5FFF].all fun ir =>
    ir.extractLsb' 12 4 = 0b0101#4 ∧ ir.getLsbD 5 = true := by decide
theorem witness_JsrLinksAndJumpsRelative : [0x4800#16, 0x4FFF].all fun ir =>
    ir.extractLsb' 12 4 = 0b0100#4 ∧ ir.getLsbD 11 = true := by decide
theorem witness_ImmediateAndRegisterFormsAgree :
    (v113.setReg 2 0xFFF0).reg 2 = sext 0b10000#5 ∧ (v113.setReg 2 15).reg 2 = sext 0b01111#5 := by decide

/-- An LD at 0xFFFF with offset 0 reads address 0x0000; one whose offset is -1 reads its own cell. -/
theorem witness_LdLoadsThePcRelativeCell :
    0x0000 = pcRelative9 0 (fetchEffect (running 0xFFFF 0 [] [])) ∧ 0xFE02 = pcRelative9 0x1FF (State.reset.setPc 0xFE03) := by
  decide
theorem witness_LdiLoadsThroughThePointer : let s := fetchEffect (running 0x0200 0 [(0x0203, 0xFE02)] [])
    0x0203 = pcRelative9 2 s ∧ 0xFE02 = memReadValue 0x0203 s := by decide
theorem witness_LdrLoadsTheBaseRelativeCell : 0x000F = baseOffset6 6 0x1F (State.reset.setReg 6 0xFFF0) ∧
    0xFFE0 = baseOffset6 0 0x20 State.reset := by decide
theorem witness_StStoresAtThePcRelativeAddress :
    0xFE06 = pcRelative9 0xFF (State.reset.setPc 0xFD07) ∧ 0xFF00 = pcRelative9 0x100 State.reset := by decide
theorem witness_StiStoresThroughThePointer : let s := fetchEffect (running 0x3000 0 [(0x3002, 0xFFFE)] [])
    0x3002 = pcRelative9 1 s ∧ 0xFFFE = memReadValue 0x3002 s := by decide
theorem witness_StrStoresAtTheBaseRelativeAddress : 0xFE06 = baseOffset6 1 0 (State.reset.setReg 1 0xFE06) ∧
    0xFFFF = baseOffset6 0 0x3F State.reset := by decide

theorem witness_BrBranchesOnARequestedFlag :
    ((0b010#3).getLsbD 1 = true ∧ (State.reset.setPsr 0x0002).psr.getLsbD 1 = true) ∧
      ∀ k < 3, ¬((0b111#3).getLsbD k = true ∧ State.reset.psr.getLsbD k = true) := by decide
theorem witness_JsrrLinksBeforeItReadsTheBase : (6#3 ≠ 7#3) ∧ (7#3 = 7#3) ∧
    ([0x4000#16, 0x47FF].all fun ir => ir.extractLsb' 12 4 = 0b0100#4 ∧ ir.getLsbD 11 = false) := by decide
theorem witness_ControlInstructionsRaiseNothing_step : let s := running 0xFFF0 0x8001 [(0xFFF0, 0x02FF)] []
    ∃ u, s.halted = false ∧ decode (fetchWord s) = .br 0b001 0x0FF ∧ exec (.br 0b001 0x0FF) (fetchEffect s) = .next u ∧
      0b001#3 &&& s.flags ≠ 0#3 := ⟨_, by decide, by decide, rfl, by decide⟩
theorem witness_ControlInstructionsRaiseNothing_target : (State.reset.setReg 7 0xFFFF).reg 7 = 0xFFFF := by decide
theorem witness_LinkRegisterHoldsTheNextAddress_jsr : let s := running 0xFFFF 0 [(0xFFFF, 0x4FFF)] []
    ∃ t, s.halted = false ∧ (∃ off, decode (fetchWord s) = .jsr off) ∧ step s = .next t :=
  ⟨_, by decide, ⟨0x7FF, by decide⟩, rfl⟩
theorem witness_LinkRegisterHoldsTheNextAddress_jsrr : let s := running 0x3000 0 [(0x3000, 0x41C0)] []
    ∃ t, s.halted = false ∧ (∃ base, decode (fetchWord s) = .jsrr base) ∧ step s = .next t :=
  ⟨_, by decide, ⟨7, by decide⟩, rfl⟩
theorem witness_LinkRegisterHoldsTheNextAddress_trap : let s := running 0x3000 0 [(0x3000, 0xF0FF)] []
    ∃ t, s.halted = false ∧ (∃ vect, decode (fetchWord s) = .trap vect) ∧ step s = .next t :=
  ⟨_, by decide, ⟨0xFF, by decide⟩, rfl⟩

theorem witness_RtiReturnsInSupervisorMode : v101.mode = .supervisor := by decide
theorem witness_RtiInUserModeIsAPrivilegeViolation : v100.mode = .user := by decide
theorem witness_Opcode1101IsAnIllegalOpcode : [0xD000#16, 0xDFFF].all fun ir =>
    0xD000 ≤ ir.toNat ∧ ir.toNat ≤ 0xDFFF := by decide
theorem witness_RejectedInterruptChangesNothing : State.reset.ie = false ∧
    (v113.ie = true ∧ ¬ v113.priority.toNat < (0#3).toNat) ∧
    ((v113.setPsr 0x0402).ie = true ∧ ¬ (v113.setPsr 0x0402).priority.toNat < (4#3).toNat) ∧
    (v113.setPsr 0x0702).priority = 7#3 := by decide
theorem witness_ServicedInterruptEntersItsHandler : (v113.ie = true ∧ v113.priority.toNat < (1#3).toNat) ∧
    ((v113.setPsr 0x0602).ie = true ∧ (v113.setPsr 0x0602).priority.toNat < (7#3).toNat) := by decide
/-- In this one and the next two, with `u` taken to be `t` itself the equations between `u` and `t` hold by reflexivity. -/
theorem witness_RtiUndoesAnEntry_exception : ∃ t : State, exec .reserved v104 = .next t ∧
    v104.savedSsp - 1 ≠ 0xFE00#16 ∧ v104.savedSsp - 1 ≠ 0xFE04#16 ∧ v104.savedSsp - 2 ≠ 0xFE00#16 ∧
    v104.savedSsp - 2 ≠ 0xFE04#16 ∧ t.mode = .supervisor :=
  ⟨_, rfl, by decide, by decide, by decide, by decide, by decide⟩
theorem witness_RtiUndoesAnEntry_privilege : ∃ t : State, (v100.mode = .user ∧ exec .rti v100 = .next t) ∧
    v100.savedSsp - 1 ≠ 0xFE00#16 ∧ v100.savedSsp - 1 ≠ 0xFE04#16 ∧ v100.savedSsp - 2 ≠ 0xFE00#16 ∧
    v100.savedSsp - 2 ≠ 0xFE04#16 ∧ t.mode = .supervisor :=
  ⟨_, ⟨by decide, rfl⟩, by decide, by decide, by decide, by decide, by decide⟩
theorem witness_RtiUndoesAnEntry_interrupt : ∃ t : State, interrupt 0x80 4 0x61 v113 = (t, .serviced 4) ∧
    v113.savedSsp - 1 ≠ 0xFE00#16 ∧ v113.savedSsp - 1 ≠ 0xFE04#16 ∧ v113.savedSsp - 2 ≠ 0xFE00#16 ∧
    v113.savedSsp - 2 ≠ 0xFE04#16 ∧ t.mode = .supervisor :=
  ⟨_, rfl, by decide, by decide, by decide, by decide, by decide⟩
theorem witness_NestedEntryLosesTheFirstContext : ∃ t u : State, interrupt 0x80 4 0x61 v113 = (t, .serviced 4) ∧
    interrupt 0x80 5 0x62 t = (u, .serviced 5) ∧
    v113.savedSsp - 1 ≠ 0xFE00#16 ∧ v113.savedSsp - 1 ≠ 0xFE04#16 ∧ v113.savedSsp - 2 ≠ 0xFE00#16 ∧
    v113.savedSsp - 2 ≠ 0xFE04#16 := ⟨_, _, rfl, rfl, by decide, by decide, by decide, by decide⟩

theorem witness_PrivilegeMattersToRtiOnly : ∃ t, Instr.addImm 1 2 15 ≠ .rti ∧ Instr.addImm 1 2 15 ≠ .reserved ∧
    psrFlags 0xFFF9 = v101.flags ∧ exec (.addImm 1 2 15) v101 = .next t := ⟨_, by decide, by decide, by decide, rfl⟩
theorem witness_ModeAndPriority_leaves : step v101 = .next (after v101) ∧ v101.mode = .supervisor ∧ (after v101).mode = .user ∧
    ∃ k, 3 ≤ k ∧ k < 15 ∧ (after v101).psr.getLsbD k ≠ v101.psr.getLsbD k :=
  ⟨rfl, by decide, by decide, 10, by decide, by decide, by decide⟩
theorem witness_ModeAndPriority_enters : step v100 = .next (after v100) ∧ v100.mode = .user ∧ (after v100).mode = .supervisor :=
  ⟨rfl, by decide, by decide⟩
/-- A character pending on a halted core, and one that V126's store replaces. -/
theorem witness_WhatNoStepDoes_pending : let s := memWrite 0xFE06 0x42 State.reset
    let r := memWrite 0xFE06 0x58 printing
    ∃ t u, clock s = .next (t, .char 0x42) ∧ s.displayValid = true ∧ s.halted = true ∧
      clock r = .next (u, .char 0x41) ∧ r.displayValid = true ∧ r.displayValue = 0x58 :=
  ⟨_, _, rfl, by decide, by decide, rfl, by decide, by decide⟩
theorem witness_WhatNoStepDoes_keeps : let s := State.reset.setKeyboardReady true
    step s = .next (after s) ∧ (after s).keyboardReady = true ∧ s.halted = true := ⟨rfl, by decide, by decide⟩
theorem witness_WhatNoStepDoes_usp : step v104 = .next (after v104) ∧ (after v104).savedUsp ≠ v104.savedUsp := ⟨rfl, by decide⟩
theorem witness_WhatNoStepDoes_ssp : let s := v101.setSavedSsp 0
    step s = .next (after s) ∧ (after s).savedSsp ≠ s.savedSsp := ⟨rfl, by decide⟩
theorem witness_OnlyNamedRegistersAreWritten : ∃ t, exec (.jsrr 7) v113 = .next t := ⟨_, rfl⟩
theorem witness_OnlyStoresAndExceptionsWriteMemory : ∃ t, exec .rti v101 = .next t ∧ (∀ sr off, Instr.rti ≠ .st sr off) ∧
    (∀ sr off, Instr.rti ≠ .sti sr off) ∧ (∀ sr base off, Instr.rti ≠ .str sr base off) ∧ Instr.rti ≠ .reserved ∧
    (Instr.rti = .rti → v101.mode = .supervisor) :=
  ⟨_, rfl, nofun, nofun, nofun, by decide, by decide⟩

theorem witness_StepRunsTheDecodedInstruction : ∃ u, v104.halted = false ∧ decode (memReadValue v104.pc v104) = .reserved ∧
    exec .reserved ((memReadEffect v104.pc v104).setPc (v104.pc + 1)) = .next u ∧ State.reset.halted = true :=
  ⟨_, by decide, by decide, rfl, by decide⟩
theorem witness_PollReportsACharacterBeforeAHalt : (memWrite 0xFE06 0x42 State.reset).displayValid = true ∧
    ((start State.reset).displayValid = false ∧ ((start State.reset).cell 0xFFFE#16).getLsbD 15 = true) ∧
    (State.reset.displayValid = false ∧ (State.reset.cell 0xFFFE#16).getLsbD 15 = false) := by decide
theorem witness_HaltIsReportedAgainAndAgain : ∃ t, clock State.reset = .next (t, .halt) := ⟨_, rfl⟩
theorem witness_NoInstructionPrintsAndHalts : ∃ t, printing.halted = false ∧ printing.displayValid = false ∧
    (printing.cell 0xFFFE#16).getLsbD 15 = true ∧ clock printing = .next (t, .char 0x41) :=
  ⟨_, by decide, by decide, by decide, rfl⟩
theorem witness_StoreIsSeenByTheNextFetch_st : let s := running 0xFFFF 0 [(0xFFFF, 0x3000)] [(0, 0x1021)]
    s.halted = false ∧ decode (fetchWord s) = .st 0 0 ∧ 0x0000#16 = pcRelative9 0 (fetchEffect s) ∧ 0x0000#16 = s.pc + 1 := by
  decide
theorem witness_StoreIsSeenByTheNextFetch_sti : let s := running 0x3000 0 [(0x3000, 0xB005), (0x3006, 0x3001)] [(0, 0x1021)]
    s.halted = false ∧ decode (fetchWord s) = .sti 0 5 ∧
      0x3001#16 = memReadValue (pcRelative9 5 (fetchEffect s)) (fetchEffect s) ∧ 0x3001#16 = s.pc + 1 := by decide
theorem witness_StoreIsSeenByTheNextFetch_str : let s := running 0xFE05 0 [(0xFE05, 0x7040)] [(0, 0x1021), (1, 0xFE06)]
    s.halted = false ∧ decode (fetchWord s) = .str 0 1 0 ∧ 0xFE06#16 = baseOffset6 1 0 (fetchEffect s) ∧ 0xFE06#16 = s.pc + 1 ∧
      0xFE06#16 ≠ 0xFE00#16 ∧ 0xFE06#16 ≠ 0xFE04#16 := by decide
theorem witness_HostReadsBackWhatItWrites : HostReg.x 7 ≠ .ie ∧ HostReg.savedSsp ≠ .ie := by decide

end Sys2Proof.Machine.Test
end

section
/-! Proofs of the family 00_scope: every operation of the host's interface is defined on every state. -/

namespace Sys2Proof.Machine

open Sys2Proof

/-! ### CLOCK is total -/

/-- A CLOCK of a halted core runs the poll and nothing else (R97). -/
theorem clock_of_halted {s : State} (hh : s.halted = true) : clock s = .next (poll s) := by
  simp [clock, hh]

/-- A CLOCK ends in a state with an event, whatever the state it starts from: a halted core polls, and a running core
polls what its instruction leaves, because every instruction leaves a state (R7, R92). -/
theorem clock_answers_next (s : State) : ∃ t e, clock s = .next (t, e) := by
  cases hh : s.halted with
  | true => exact ⟨_, _, clock_of_halted hh⟩
  | false =>
    obtain ⟨u, hu⟩ := exec_answers_next (decode (fetchWord s)) (fetchEffect s)
    exact ⟨_, _, clock_of_exec hh hu⟩

/-! ### The operations of the interface -/

/-- The CLOCK operation returns the event of the CLOCK (R5). -/
theorem perform_clock_of_clock {s t : State} {e : Event} (h : clock s = .next (t, e)) :
    perform .clock s = .next (t, .event e) := by
  simp [perform, h]

/-- Settles O55: of the eight operations only CLOCK can pass on a fault or a refusal, and a CLOCK has neither; each of the
others answers its result outright. -/
theorem everyOperationIsTotal : Obligations.EveryOperationIsTotal := by
  intro op s
  cases op with
  | clock =>
    obtain ⟨t, e, h⟩ := clock_answers_next s
    exact ⟨t, .event e, perform_clock_of_clock h⟩
  | reset | start | interrupt | hostMemRead | hostMemWrite | hostRegRead | hostRegWrite => exact ⟨_, _, rfl⟩

end Sys2Proof.Machine
end

section
/-! Proofs of the family 10_state: the condition flags come from results, and from the psr that RTI pops. -/

namespace Sys2Proof.Machine

open Sys2Proof

/-! ### The flags of a value -/

/-- Bit 15 of a result is its sign in two's complement (R19, R35). -/
theorem getLsbD_15_iff_toInt_neg (v : Word) : v.getLsbD 15 = true ↔ v.toInt < 0 := by
  rw [← decide_eq_true_iff (p := v.toInt < 0), ← BitVec.msb_eq_toInt, BitVec.msb_eq_getLsbD_last]

/-- A word is zero exactly when its signed reading is. -/
theorem eq_zero_iff_toInt_eq_zero (v : Word) : v = 0x0000#16 ↔ v.toInt = 0 := by
  simp [← BitVec.toInt_inj]

/-- The three patterns of the flags, by the signed reading of the result (R19). -/
theorem conditionOf_cases (v : Word) :
    (v.toInt < 0 ∧ conditionOf v = 0b100#3) ∨ (v.toInt = 0 ∧ conditionOf v = 0b010#3) ∨
      (0 < v.toInt ∧ conditionOf v = 0b001#3) := by
  simp only [conditionOf, getLsbD_15_iff_toInt_neg, eq_zero_iff_toInt_eq_zero]
  split
  · next hneg => exact .inl ⟨hneg, rfl⟩
  · split
    · next hzero => exact .inr (.inl ⟨hzero, rfl⟩)
    · exact .inr (.inr ⟨by omega, rfl⟩)

/-- A flag update puts the pattern into bits 2:0 (R17, R19). -/
theorem psrWithFlags_getLsbD_low (psr : Word) (f : BitVec 3) (k : Nat) (hk : k < 3) :
    (psrWithFlags psr f).getLsbD k = f.getLsbD k := by
  interval_cases k <;> simp [psrWithFlags]

theorem flagsSetBy_psrWithFlags (v psr : Word) : FlagsSetBy v psr (psrWithFlags psr (conditionOf v)) := by
  refine ⟨psrWithFlags_getLsbD psr _, ?_⟩
  simp only [psrWithFlags_getLsbD_low, Nat.reduceLT]
  rcases conditionOf_cases v with ⟨hv, hc⟩ | ⟨hv, hc⟩ | ⟨hv, hc⟩ <;> (simp [hc]; omega)

/-! ### Instructions with a result -/

theorem writeResult_flagsSetBy (dr : Reg) (v : Word) (s : State) :
    FlagsSetBy ((writeResult dr v s).reg dr) s.psr (writeResult dr v s).psr := by
  simpa [writeResult_reg] using flagsSetBy_psrWithFlags v s.psr

/-- An instruction with a result ends by writing it, in a state whose psr is still the old one: only the reads of the loads
come before (R19). -/
theorem exec_of_resultRegister {i : Instr} {dr : Reg} (s : State) (hi : resultRegister i = some dr) :
    ∃ v u, exec i s = .next (writeResult dr v u) ∧ u.psr = s.psr := by
  cases i <;> cases hi
  case ld | ldr => exact ⟨_, _, rfl, memReadEffect_psr _ s⟩
  case ldi => exact ⟨_, _, rfl, by simp⟩
  all_goals exact ⟨_, s, rfl, rfl⟩

theorem exec_result_flagsSetBy {i : Instr} {dr : Reg} {s t : State} (hi : resultRegister i = some dr)
    (h : exec i s = .next t) : FlagsSetBy (t.reg dr) s.psr t.psr := by
  obtain ⟨v, u, hu, hpsr⟩ := exec_of_resultRegister s hi
  cases hu.symm.trans h
  exact hpsr ▸ writeResult_flagsSetBy dr v u

/-! ### Operations that keep the flags -/

theorem psrFlags_congr {p q : Word} (h : ∀ k < 3, p.getLsbD k = q.getLsbD k) : psrFlags p = psrFlags q := by
  ext k hk
  simp [psrFlags, ← BitVec.getLsbD_eq_getElem, hk, h k hk]

theorem State.flags_eq_of_psr_eq {s t : State} (h : t.psr = s.psr) : t.flags = s.flags := congrArg psrFlags h

theorem psrToSupervisor_flags (psr : Word) : psrFlags (psrToSupervisor psr) = psrFlags psr :=
  psrFlags_congr fun k hk => psrToSupervisor_getLsbD psr k (by omega)

theorem psrWithPriority_flags (psr : Word) (pri : BitVec 3) : psrFlags (psrWithPriority psr pri) = psrFlags psr :=
  psrFlags_congr fun k hk => psrWithPriority_getLsbD psr pri k (by omega) (by omega)

/-- An exception entry keeps the flags (R173). -/
theorem exceptionEntry_flags (code : BitVec 8) (s : State) : (exceptionEntry code s).flags = s.flags := by
  simp [State.flags, psrToSupervisor_flags]

/-- A serviced interrupt changes the mode and the priority, and keeps the flags (R180). -/
theorem interruptEntry_flags (vec : BitVec 8) (pri : BitVec 3) (data : Word) (s : State) :
    (interruptEntry vec pri data s).flags = s.flags := by
  simp [State.flags, interruptEntry, psrToSupervisor_flags, psrWithPriority_flags]

theorem interrupt_flags (vec : BitVec 8) (pri : BitVec 3) (data : Word) (s : State) :
    (interrupt vec pri data s).1.flags = s.flags := by
  rcases interrupt_cases vec pri data s with ⟨_, h⟩ | ⟨_, _, h⟩ | ⟨_, _, h⟩ <;> rw [h]
  exact interruptEntry_flags vec pri data s

/-- An instruction without a result that takes no exception and is not RTI leaves the whole psr alone. -/
theorem exec_psr_of_no_result {i : Instr} {s t : State} (hi : resultRegister i = none) (hrti : i ≠ .rti)
    (hres : i ≠ .reserved) (h : exec i s = .next t) : t.psr = s.psr := by
  cases i <;> cases hi
  case rti => exact absurd rfl hrti
  case reserved => exact absurd rfl hres
  case br => simp only [exec, execBr] at h; split at h <;> cases h <;> rfl
  all_goals (cases h; simp)

/-- Opcode 1101 keeps the flags through its exception entry, and the other instructions without a result keep psr (R19). -/
theorem exec_flags_of_no_result {i : Instr} {s t : State} (hi : resultRegister i = none) (hrti : i ≠ .rti)
    (h : exec i s = .next t) : t.flags = s.flags := by
  by_cases hres : i = .reserved
  · subst hres; cases h
    exact exceptionEntry_flags _ s
  · exact State.flags_eq_of_psr_eq (exec_psr_of_no_result hi hrti hres h)

/-! ### RTI -/

theorem exec_rti_of_user {s : State} (hm : s.mode = .user) :
    exec .rti s = .next (exceptionEntry Config.excPrivilege s) := by
  simp [exec, execRti, hm]

theorem exec_rti_of_supervisor {s : State} (hm : s.mode = .supervisor) : exec .rti s = .next (exceptionReturn s) := by
  simp [exec, execRti, hm]

/-- The psr that a return pops stands one above the popped pc, and is read after the first pop's side effect (R160, R175). -/
theorem exceptionReturn_psr_eq_memReadValue (s : State) :
    (exceptionReturn s).psr = memReadValue (s.reg 6#3 + 1) (memReadEffect (s.reg 6#3) s) := by
  rw [exceptionReturn_psr, popValue, State.setPc_reg, popEffect_reg, if_pos rfl]
  exact memReadValue_congr _ (by simp [popEffect]) (by simp)

/-! ### The obligation -/

/-- Settles O17: setcc and every instruction with a result put the pattern of `conditionOf` into psr[2:0]; the exception
entries and INTERRUPT touch psr[15] and psr[10:8] only, every other instruction but RTI keeps psr, and RTI in supervisor
mode takes the word of its second pop. -/
theorem flagsComeFromResultsOnly : Obligations.FlagsComeFromResultsOnly := by
  refine ⟨fun v s => ⟨flagsSetBy_psrWithFlags v s.psr, rfl⟩, fun _ _ _ _ => exec_result_flagsSetBy,
    fun _ _ _ => exec_flags_of_no_result, ?_, ?_, interrupt_flags⟩
  · intro s t hm h
    cases (exec_rti_of_user hm).symm.trans h
    exact exceptionEntry_flags _ s
  · intro s t hm h
    cases (exec_rti_of_supervisor hm).symm.trans h
    exact exceptionReturn_psr_eq_memReadValue s

end Sys2Proof.Machine
end

section
/-! Proofs of the family 20_memory: MemWrite, in the words in which the claims describe an effect. -/

namespace Sys2Proof.Machine

open Sys2Proof

/-! ### The effect of a MemWrite -/

theorem memWrite_storedAt (ea v : Word) (s : State) : StoredAt ea v s (memWrite ea v s) :=
  ⟨by rw [memWrite_cell, if_pos rfl], fun a ha => by rw [memWrite_cell, if_neg ha.symm]⟩

/-- DDR is the one address at which a MemWrite reaches the display latch (R45, R52). -/
theorem memWrite_displayAfterWrite (ea v : Word) (s : State) : DisplayAfterWrite ea v s (memWrite ea v s) := by
  unfold DisplayAfterWrite
  split
  · next hddr =>
    exact ⟨(memWrite_displayValid ea v s).trans (if_pos hddr), (memWrite_displayValue ea v s).trans (if_pos hddr)⟩
  · next hddr =>
    exact ⟨(memWrite_displayValid ea v s).trans (if_neg hddr), (memWrite_displayValue ea v s).trans (if_neg hddr)⟩

/-- The run/halt state is among what is kept: a MemWrite to the control register is not acted on (R45). -/
theorem memWrite_specialsKept (ea v : Word) (s : State) : SpecialsKept s (memWrite ea v s) :=
  ⟨memWrite_savedUsp ea v s, memWrite_savedSsp ea v s, memWrite_ie ea v s, memWrite_halted ea v s⟩

theorem memWrite_regsKept (ea v : Word) (s : State) : RegsKeptExcept [] s (memWrite ea v s) :=
  fun i _ => memWrite_reg ea v s i

/-! ### The obligation -/

/-- Settles O15: one cell takes the word, DDR's address alone arms the display latch, and every other field is kept. -/
theorem memWriteStoresAtEveryAddress : Obligations.MemWriteStoresAtEveryAddress := fun ea v s =>
  ⟨memWrite_storedAt ea v s, memWrite_displayAfterWrite ea v s, memWrite_keyboardReady ea v s,
    memWrite_specialsKept ea v s, memWrite_regsKept ea v s, memWrite_pc ea v s, memWrite_psr ea v s⟩

end Sys2Proof.Machine
end

section
/-! Proofs of the family 30_encoding: what sign extension and zero extension do to a field of any width. -/

namespace Sys2Proof.Machine

open Sys2Proof

/-! ### Sign extension -/

theorem sext_toInt {n : Nat} (v : BitVec n) (h : n ≤ 16) : (sext v).toInt = v.toInt :=
  BitVec.toInt_signExtend_of_le h

/-- Every bit from the field's sign bit upwards is the sign bit (R8, R74). -/
theorem sext_getLsbD {n : Nat} (v : BitVec n) {k : Nat} (hk : k < 16) :
    (sext v).getLsbD k = v.getLsbD (if k < n then k else n - 1) := by
  rw [sext, BitVec.getLsbD_signExtend, BitVec.msb_eq_getLsbD_last]
  split <;> simp [hk]

/-- The low bits of an extended field are the field again, so an extension loses nothing. -/
theorem sext_setWidth_self {n : Nat} (v : BitVec n) (h : n ≤ 16) : (sext v).setWidth n = v := by
  ext k hk
  have hbit := sext_getLsbD v (Nat.lt_of_lt_of_le hk h)
  rw [if_pos hk] at hbit
  rw [BitVec.getElem_setWidth, hbit, BitVec.getLsbD_eq_getElem hk]

/-- An extended field keeps the two's-complement range of its own width, with no scaling (R74). -/
theorem sext_toInt_range {n : Nat} (v : BitVec n) (h : n ≤ 16) :
    -2 ^ (n - 1) ≤ (sext v).toInt ∧ (sext v).toInt ≤ 2 ^ (n - 1) - 1 := by
  rw [sext_toInt v h]
  exact ⟨v.le_toInt, Int.le_sub_one_of_lt v.toInt_lt⟩

/-! ### Zero extension -/

theorem zext_toNat {n : Nat} (v : BitVec n) (h : n ≤ 16) : (zext v).toNat = v.toNat :=
  BitVec.toNat_setWidth_of_le h

/-- The trap vector table stands at 0x0000, so a cell's address is the vector itself (R74, R147). -/
theorem trapVectorCell_eq_zext (v : BitVec 8) : trapVectorCell v = zext v :=
  BitVec.eq_of_toNat_eq ((trapVectorCell_toNat v).trans (zext_toNat v (by decide)).symm)

/-! ### The obligation -/

/-- Settles O13: sign extension to 16 bits keeps the signed number at every width up to 16, which gives each format's range;
cutting it back gives the field again, which gives idempotence; zero extension keeps the unsigned number. -/
theorem immediatesAreSignExtended : Obligations.ImmediatesAreSignExtended := by
  refine ⟨fun n v _ hn => ⟨sext_toInt v hn, fun _ => sext_getLsbD v, congrArg sext (sext_setWidth_self v hn)⟩,
    fun v => sext_toInt_range v (by decide), fun v => sext_toInt_range v (by decide),
    fun v => sext_toInt_range v (by decide), fun v => sext_toInt_range v (by decide),
    fun v => ⟨zext_toNat v (by decide), ?_, trapVectorCell_eq_zext v⟩⟩
  rw [zext_toNat v (by decide)]
  exact Nat.le_of_lt_succ v.isLt

end Sys2Proof.Machine
end

section
/-! Proofs of the family 41_operate: ADD, AND and NOT write one result and set the flags from it. -/

namespace Sys2Proof.Machine

open Sys2Proof

/-! ### Decoding by the opcode -/

/-- The opcode IR[15:12], bit by bit, as `decode` dispatches on it (R71, R98). -/
theorem getLsbD_of_opcode {ir : Word} {op : BitVec 4} (h : ir.extractLsb' 12 4 = op) :
    ir.getLsbD 15 = op.getLsbD 3 ∧ ir.getLsbD 14 = op.getLsbD 2 ∧ ir.getLsbD 13 = op.getLsbD 1 ∧
      ir.getLsbD 12 = op.getLsbD 0 := by
  subst h; simp

/-- Of the words with opcode 0001, IR[5] selects the form of ADD (R76). -/
theorem decode_of_opcode_add {ir : Word} (h : ir.extractLsb' 12 4 = 0b0001#4) :
    decode ir = bif ir.getLsbD 5 then .addImm (fieldDR ir) (fieldSR1 ir) (fieldImm5 ir)
      else .addReg (fieldDR ir) (fieldSR1 ir) (fieldSR2 ir) := by
  obtain ⟨h15, h14, h13, h12⟩ := getLsbD_of_opcode h
  rw [decode, h15, h14, h13, h12]; rfl

/-- Of the words with opcode 0101, IR[5] selects the form of AND (R76). -/
theorem decode_of_opcode_and {ir : Word} (h : ir.extractLsb' 12 4 = 0b0101#4) :
    decode ir = bif ir.getLsbD 5 then .andImm (fieldDR ir) (fieldSR1 ir) (fieldImm5 ir)
      else .andReg (fieldDR ir) (fieldSR1 ir) (fieldSR2 ir) := by
  obtain ⟨h15, h14, h13, h12⟩ := getLsbD_of_opcode h
  rw [decode, h15, h14, h13, h12]; rfl

/-- Every word with opcode 1001 is a NOT: IR[5:0] is ignored (R77). -/
theorem decode_of_opcode_not {ir : Word} (h : ir.extractLsb' 12 4 = 0b1001#4) :
    decode ir = .not (fieldDR ir) (fieldSR1 ir) := by
  obtain ⟨h15, h14, h13, h12⟩ := getLsbD_of_opcode h
  rw [decode, h15, h14, h13, h12]; rfl

/-! ### Writing a result -/

theorem writeResult_reg_self (dr : Reg) (v : Word) (s : State) : (writeResult dr v s).reg dr = v :=
  (writeResult_reg dr v s dr).trans (if_pos rfl)

theorem writeResult_regsKept (dr : Reg) (v : Word) (s : State) : RegsKeptExcept [dr] s (writeResult dr v s) := by
  intro i hi
  have hne : dr ≠ i := fun hdr => hi (List.mem_singleton.mpr hdr.symm)
  rw [writeResult_reg, if_neg hne]

theorem writeResult_specialsKept (dr : Reg) (v : Word) (s : State) : SpecialsKept s (writeResult dr v s) :=
  ⟨rfl, rfl, rfl, rfl⟩

/-- Apart from its destination register, a result reaches the flags and nothing else (R19, R115). -/
theorem writeResult_flags_and_frame (dr : Reg) (v : Word) (s : State) :
    FlagsSetBy ((writeResult dr v s).reg dr) s.psr (writeResult dr v s).psr ∧
      RegsKeptExcept [dr] s (writeResult dr v s) ∧ (writeResult dr v s).pc = s.pc ∧
      MemoryKept s (writeResult dr v s) ∧ SpecialsKept s (writeResult dr v s) ∧
      KeyboardKept s (writeResult dr v s) ∧ DisplayKept s (writeResult dr v s) :=
  ⟨writeResult_flagsSetBy dr v s, writeResult_regsKept dr v s, writeResult_pc dr v s, writeResult_cell dr v s,
    writeResult_specialsKept dr v s, writeResult_keyboardReady dr v s, writeResult_displayValid dr v s,
    writeResult_displayValue dr v s⟩

/-! ### The obligations

In every form the result is computed from the old state and then written, so a destination that is also a source needs no
case of its own. -/

/-- Settles O18: the sum of two words is their sum modulo 65536. -/
theorem addRegisterFormAddsModulo65536 : Obligations.AddRegisterFormAddsModulo65536 := by
  refine ⟨fun ir hop hmode => ?_, fun dr sr1 sr2 s => ⟨_, rfl, ?_, writeResult_flags_and_frame dr _ s⟩⟩
  · rw [decode_of_opcode_add hop, hmode]; rfl
  · rw [writeResult_reg_self, BitVec.toNat_add]

/-- Settles O19: adding the sign-extended immediate adds its signed value, modulo 65536. -/
theorem addImmediateFormAddsTheSignedImmediate : Obligations.AddImmediateFormAddsTheSignedImmediate := by
  refine ⟨fun ir hop hmode => ?_, fun dr sr1 imm5 s => ⟨_, rfl, ?_, writeResult_flags_and_frame dr _ s⟩⟩
  · rw [decode_of_opcode_add hop, hmode]; rfl
  · rw [writeResult_reg_self, toNat_add_sext _ imm5 (by decide)]

/-- Settles O20: the AND of two words is the AND of their bits at every place. -/
theorem andRegisterFormAndsEveryBit : Obligations.AndRegisterFormAndsEveryBit := by
  refine ⟨fun ir hop hmode => ?_, fun dr sr1 sr2 s => ⟨_, rfl, fun k _ => ?_, writeResult_flags_and_frame dr _ s⟩⟩
  · rw [decode_of_opcode_and hop, hmode]; rfl
  · rw [writeResult_reg_self, BitVec.getLsbD_and]

/-- Settles O21: from bit 4 upwards, the bits that meet the source are the immediate's sign bit. -/
theorem andImmediateFormAndsTheSignExtendedImmediate : Obligations.AndImmediateFormAndsTheSignExtendedImmediate := by
  refine ⟨fun ir hop hmode => ?_, fun dr sr1 imm5 s => ⟨_, rfl, fun k hk => ?_, writeResult_flags_and_frame dr _ s⟩⟩
  · rw [decode_of_opcode_and hop, hmode]; rfl
  · rw [writeResult_reg_self, BitVec.getLsbD_and, sext_getLsbD imm5 hk]

/-- Settles O22: inverting all 16 bits of a word takes it from 0xFFFF. -/
theorem notInvertsEveryBit : Obligations.NotInvertsEveryBit := by
  refine ⟨fun ir => decode_of_opcode_not, fun dr sr s => ⟨_, rfl, ?_, fun k hk => ?_, writeResult_flags_and_frame dr _ s⟩⟩
  · rw [writeResult_reg_self, BitVec.toNat_not]
  · rw [writeResult_reg_self, BitVec.getLsbD_not, decide_eq_true hk, Bool.true_and]

end Sys2Proof.Machine
end

section
/-! Proofs of the family 42_data_movement: loads, LEA and stores, with the device side effects of the reads they make. -/

namespace Sys2Proof.Machine

open Sys2Proof

/-! ### Decoding by the opcode: one equation per arm (R71, R98) -/

theorem decode_of_opcode_ld {ir : Word} (h : ir.extractLsb' 12 4 = 0b0010#4) :
    decode ir = .ld (fieldDR ir) (fieldPcOffset9 ir) := by
  simp only [decode, getLsbD_of_opcode h, BitVec.reduceGetLsb]

theorem decode_of_opcode_ldi {ir : Word} (h : ir.extractLsb' 12 4 = 0b1010#4) :
    decode ir = .ldi (fieldDR ir) (fieldPcOffset9 ir) := by
  simp only [decode, getLsbD_of_opcode h, BitVec.reduceGetLsb]

theorem decode_of_opcode_ldr {ir : Word} (h : ir.extractLsb' 12 4 = 0b0110#4) :
    decode ir = .ldr (fieldDR ir) (fieldSR1 ir) (fieldOffset6 ir) := by
  simp only [decode, getLsbD_of_opcode h, BitVec.reduceGetLsb]

theorem decode_of_opcode_lea {ir : Word} (h : ir.extractLsb' 12 4 = 0b1110#4) :
    decode ir = .lea (fieldDR ir) (fieldPcOffset9 ir) := by
  simp only [decode, getLsbD_of_opcode h, BitVec.reduceGetLsb]

theorem decode_of_opcode_st {ir : Word} (h : ir.extractLsb' 12 4 = 0b0011#4) :
    decode ir = .st (fieldDR ir) (fieldPcOffset9 ir) := by
  simp only [decode, getLsbD_of_opcode h, BitVec.reduceGetLsb]

theorem decode_of_opcode_sti {ir : Word} (h : ir.extractLsb' 12 4 = 0b1011#4) :
    decode ir = .sti (fieldDR ir) (fieldPcOffset9 ir) := by
  simp only [decode, getLsbD_of_opcode h, BitVec.reduceGetLsb]

theorem decode_of_opcode_str {ir : Word} (h : ir.extractLsb' 12 4 = 0b0111#4) :
    decode ir = .str (fieldDR ir) (fieldSR1 ir) (fieldOffset6 ir) := by
  simp only [decode, getLsbD_of_opcode h, BitVec.reduceGetLsb]

/-! ### The reads an instruction makes -/

/-- What MemReads of these addresses, in this order, do to the state (R44). -/
def readsEffect (reads : List Word) (s : State) : State := reads.foldl (fun t a => memReadEffect a t) s

theorem readsEffect_cons (a : Word) (reads : List Word) (s : State) :
    readsEffect (a :: reads) s = readsEffect reads (memReadEffect a s) := rfl

/-- The keyboard latch is all that reads can reach, and a single read of KBDR among them clears it for good (R44, R50). -/
theorem readsEffect_eq_setKeyboardReady (reads : List Word) (s : State) :
    readsEffect reads s = s.setKeyboardReady (if 0xFE02#16 ∈ reads then false else s.keyboardReady) := by
  induction reads generalizing s with
  | nil => rfl
  | cons a reads ih =>
    rw [readsEffect_cons, ih, memReadEffect]
    by_cases ha : a = 0xFE02#16
    · subst ha; simp [State.setKeyboardReady]
    · simp [ha, Ne.symm ha]

/-! ### Loads and stores after their reads -/

/-- A result written after reads: the destination, the flags, and the keyboard latch as the reads left it (R120, R123,
R124). -/
theorem writeResult_readsEffect (reads : List Word) (dr : Reg) (v : Word) {s t : State}
    (ht : t = writeResult dr v (readsEffect reads s)) :
    t.reg dr = v ∧ FlagsSetBy (t.reg dr) s.psr t.psr ∧ KeyboardAfterReads reads s t ∧ RegsKeptExcept [dr] s t ∧
      t.pc = s.pc ∧ MemoryKept s t ∧ SpecialsKept s t ∧ DisplayKept s t := by
  rw [readsEffect_eq_setKeyboardReady] at ht
  subst ht
  obtain ⟨hflags, hregs, hpc, hmem, hspecials, hkeyboard, hdisplay⟩ := writeResult_flags_and_frame dr v
    (s.setKeyboardReady (if 0xFE02#16 ∈ reads then false else s.keyboardReady))
  exact ⟨writeResult_reg_self dr v _, hflags, hkeyboard, hregs, hpc, hmem, hspecials, hdisplay⟩

/-- A word stored after reads: one cell, the display latch as the write left it, the keyboard latch as the reads left it
(R130, R132, R133). -/
theorem memWrite_readsEffect (reads : List Word) (ea v : Word) {s t : State}
    (ht : t = memWrite ea v (readsEffect reads s)) :
    StoredAt ea v s t ∧ DisplayAfterWrite ea v s t ∧ KeyboardAfterReads reads s t ∧ RegsKeptExcept [] s t ∧
      t.pc = s.pc ∧ t.psr = s.psr ∧ SpecialsKept s t := by
  rw [readsEffect_eq_setKeyboardReady] at ht
  subst ht
  obtain ⟨hstored, hdisplay, hkeyboard, hspecials, hregs, hpc, hpsr⟩ := memWriteStoresAtEveryAddress ea v
    (s.setKeyboardReady (if 0xFE02#16 ∈ reads then false else s.keyboardReady))
  exact ⟨hstored, hdisplay, hkeyboard, hregs, hpc, hpsr, hspecials⟩

/-- A store that reads nothing keeps the keyboard latch (R130, R133). -/
theorem memWrite_effect_and_frame (ea v : Word) (s : State) :
    StoredAt ea v s (memWrite ea v s) ∧ DisplayAfterWrite ea v s (memWrite ea v s) ∧
      RegsKeptExcept [] s (memWrite ea v s) ∧ (memWrite ea v s).pc = s.pc ∧ (memWrite ea v s).psr = s.psr ∧
      SpecialsKept s (memWrite ea v s) ∧ KeyboardKept s (memWrite ea v s) := by
  obtain ⟨hstored, hdisplay, hkeyboard, hspecials, hregs, hpc, hpsr⟩ := memWriteStoresAtEveryAddress ea v s
  exact ⟨hstored, hdisplay, hregs, hpc, hpsr, hspecials, hkeyboard⟩

/-! ### The obligations

Address and stored word are computed from the old state, before any register is written, so operands that name the same
register need no case of their own. -/

/-- Settles O24: one read, at the PC-relative address, and its value as the result. -/
theorem ldLoadsThePcRelativeCell : Obligations.LdLoadsThePcRelativeCell := by
  refine ⟨fun ir => decode_of_opcode_ld, ?_⟩
  rintro dr off s ea rfl
  exact ⟨_, rfl, writeResult_readsEffect [pcRelative9 off s] dr _ rfl⟩

/-- Settles O25: two reads, the second from the state the first leaves, and the second one's value as the result. -/
theorem ldiLoadsThroughThePointer : Obligations.LdiLoadsThroughThePointer := by
  refine ⟨fun ir => decode_of_opcode_ldi, ?_⟩
  rintro dr off s pa ea rfl rfl
  exact ⟨_, rfl, writeResult_readsEffect [pcRelative9 off s, memReadValue (pcRelative9 off s) s] dr _ rfl⟩

/-- Settles O26: one read, at the base-relative address, and its value as the result. -/
theorem ldrLoadsTheBaseRelativeCell : Obligations.LdrLoadsTheBaseRelativeCell := by
  refine ⟨fun ir => decode_of_opcode_ldr, ?_⟩
  rintro dr base off s ea rfl
  exact ⟨_, rfl, writeResult_readsEffect [baseOffset6 base off s] dr _ rfl⟩

/-- Settles O27: the result is the address, a sum modulo 65536, and writing a result reaches no latch. -/
theorem leaLoadsTheAddressAndSetsTheFlags : Obligations.LeaLoadsTheAddressAndSetsTheFlags := by
  refine ⟨fun ir => decode_of_opcode_lea, fun dr off s => ⟨_, rfl, ?_, writeResult_flags_and_frame dr _ s⟩⟩
  rw [writeResult_reg_self, pcRelative9, toNat_add_sext s.pc off (by decide)]

/-- Settles O28: one MemWrite, at the PC-relative address. -/
theorem stStoresAtThePcRelativeAddress : Obligations.StStoresAtThePcRelativeAddress := by
  refine ⟨fun ir => decode_of_opcode_st, ?_⟩
  rintro sr off s ea rfl
  exact ⟨_, rfl, memWrite_effect_and_frame (pcRelative9 off s) (s.reg sr) s⟩

/-- Settles O29: one read, of the pointer, and one MemWrite, where it points. -/
theorem stiStoresThroughThePointer : Obligations.StiStoresThroughThePointer := by
  refine ⟨fun ir => decode_of_opcode_sti, ?_⟩
  rintro sr off s pa ea rfl rfl
  exact ⟨_, rfl, memWrite_readsEffect [pcRelative9 off s] (memReadValue (pcRelative9 off s) s) (s.reg sr) rfl⟩

/-- Settles O30: one MemWrite, at the base-relative address. -/
theorem strStoresAtTheBaseRelativeAddress : Obligations.StrStoresAtTheBaseRelativeAddress := by
  refine ⟨fun ir => decode_of_opcode_str, ?_⟩
  rintro sr base off s ea rfl
  exact ⟨_, rfl, memWrite_effect_and_frame (baseOffset6 base off s) (s.reg sr) s⟩

end Sys2Proof.Machine
end

section
/-! Proofs of the family 43_control: a control instruction replaces pc, and a call links first; nothing else happens. -/

namespace Sys2Proof.Machine

open Sys2Proof

/-! ### Decoding by the opcode (R71, R98) -/

theorem decode_of_opcode_jmp {ir : Word} (h : ir.extractLsb' 12 4 = 0b1100#4) : decode ir = .jmp (fieldSR1 ir) := by
  simp only [decode, getLsbD_of_opcode h, BitVec.reduceGetLsb]

/-- Of the words with opcode 0100, IR[11] selects JSR or JSRR (R76). -/
theorem decode_of_opcode_jsr {ir : Word} (h : ir.extractLsb' 12 4 = 0b0100#4) :
    decode ir = bif ir.getLsbD 11 then .jsr (fieldPcOffset11 ir) else .jsrr (fieldSR1 ir) := by
  simp only [decode, getLsbD_of_opcode h, BitVec.reduceGetLsb]

theorem decode_of_opcode_trap {ir : Word} (h : ir.extractLsb' 12 4 = 0b1111#4) :
    decode ir = .trap (fieldTrapvect8 ir) := by
  simp only [decode, getLsbD_of_opcode h, BitVec.reduceGetLsb]

/-! ### Targets -/

theorem pcRelative9_toNat (off : BitVec 9) (s : State) :
    ((pcRelative9 off s).toNat : Int) = ((s.pc.toNat : Int) + off.toInt) % 65536 :=
  toNat_add_sext s.pc off (by decide)

theorem pcRelative11_toNat (off : BitVec 11) (s : State) :
    ((pcRelative11 off s).toNat : Int) = ((s.pc.toNat : Int) + off.toInt) % 65536 :=
  toNat_add_sext s.pc off (by decide)

/-- No device register stands in the trap vector table, so the read of a vector has no side effect (R41, R147). -/
theorem jumpThrough_trapVectorCell (vect : BitVec 8) (s : State) :
    jumpThrough (trapVectorCell vect) s = s.setPc (s.cell (zext vect)) := by
  have hlt : (trapVectorCell vect).toNat < 65024 := by rw [trapVectorCell_toNat]; omega
  obtain ⟨_, hkbdr, _⟩ := plain_of_lt hlt
  rw [jumpThrough, memReadEffect, if_neg hkbdr, memReadValue_trapVectorCell, trapVectorCell_eq_zext]

/-! ### Branches -/

theorem exec_br_of_taken {nzp : BitVec 3} {s : State} (off : BitVec 9) (h : nzp &&& s.flags ≠ 0#3) :
    exec (.br nzp off) s = .next (s.setPc (pcRelative9 off s)) := if_pos h

theorem exec_br_of_not_taken {nzp : BitVec 3} {s : State} (off : BitVec 9) (h : nzp &&& s.flags = 0#3) :
    exec (.br nzp off) s = .next s := if_neg (not_not_intro h)

/-! ### Calls -/

/-- The instructions that link: JSR, JSRR and TRAP (R142). -/
def IsCall (i : Instr) : Prop := (∃ off, i = .jsr off) ∨ (∃ base, i = .jsrr base) ∨ ∃ vect, i = .trap vect

theorem exec_trap (vect : BitVec 8) (s : State) :
    exec (.trap vect) s = .next ((link s).setPc (s.cell (zext vect))) :=
  congrArg Host.Outcome.next (jumpThrough_trapVectorCell vect (link s))

/-- A call links and replaces pc, and does nothing else. -/
theorem exec_of_isCall {i : Instr} (hi : IsCall i) (s : State) : ∃ target, exec i s = .next ((link s).setPc target) := by
  rcases hi with ⟨off, rfl⟩ | ⟨base, rfl⟩ | ⟨vect, rfl⟩
  · exact ⟨_, rfl⟩
  · exact ⟨_, rfl⟩
  · exact ⟨_, exec_trap vect s⟩

theorem link_reg_linkRegister (s : State) : (link s).reg 7#3 = s.pc := State.reg_setReg_same s 7#3 s.pc

theorem link_reg_of_ne (s : State) {i : Reg} (h : i ≠ 7#3) : (link s).reg i = s.reg i :=
  State.reg_setReg_ne s s.pc h.symm

theorem link_setPc_regsKept (s : State) (target : Word) : RegsKeptExcept [7#3] s ((link s).setPc target) :=
  fun _ hi => link_reg_of_ne s fun h => hi (List.mem_singleton.mpr h)

/-- What a call leaves unchanged: every field but x[7] and pc (R144, R147). -/
theorem link_setPc_frame (s : State) (target : Word) :
    RegsKeptExcept [7#3] s ((link s).setPc target) ∧ ((link s).setPc target).psr = s.psr ∧
      MemoryKept s ((link s).setPc target) ∧ SpecialsKept s ((link s).setPc target) ∧
      KeyboardKept s ((link s).setPc target) ∧ DisplayKept s ((link s).setPc target) :=
  ⟨link_setPc_regsKept s target, link_psr s, link_cell s,
    ⟨link_savedUsp s, link_savedSsp s, link_ie s, link_halted s⟩, link_keyboardReady s,
    ⟨link_displayValid s, link_displayValue s⟩⟩

/-! ### Every control instruction -/

/-- The instructions of the family: BR, JMP and the calls. -/
def IsControl (i : Instr) : Prop := (∃ nzp off, i = .br nzp off) ∨ (∃ base, i = .jmp base) ∨ IsCall i

/-- A control instruction replaces pc, in the old state or after the link; an untaken branch replaces it by itself. -/
theorem exec_of_isControl {i : Instr} (hi : IsControl i) (s : State) :
    ∃ target, exec i s = .next (s.setPc target) ∨ exec i s = .next ((link s).setPc target) := by
  rcases hi with ⟨nzp, off, rfl⟩ | ⟨base, rfl⟩ | hcall
  · by_cases htaken : nzp &&& s.flags = 0#3
    · exact ⟨s.pc, .inl (exec_br_of_not_taken off htaken)⟩
    · exact ⟨_, .inl (exec_br_of_taken off htaken)⟩
  · exact ⟨s.reg base, .inl rfl⟩
  · obtain ⟨target, h⟩ := exec_of_isCall hcall s
    exact ⟨target, .inr h⟩

/-- A control instruction touches nothing that an exception entry would: not psr, x[6], memory or a shadow register
(R141). -/
theorem exec_control_frame {i : Instr} {s t : State} (hi : IsControl i) (h : exec i s = .next t) :
    t.psr = s.psr ∧ t.reg 6#3 = s.reg 6#3 ∧ t.mem = s.mem ∧ SpecialsKept s t := by
  obtain ⟨target, hplain | hlink⟩ := exec_of_isControl hi s
  · cases hplain.symm.trans h
    exact ⟨rfl, rfl, rfl, rfl, rfl, rfl, rfl⟩
  · cases hlink.symm.trans h
    obtain ⟨_, hpsr, _, hspecials, _, _⟩ := link_setPc_frame s target
    exact ⟨hpsr, link_reg_of_ne s (by decide), link_mem s, hspecials⟩

/-- A CLOCK that executes an instruction ends with the pc and the psr that the instruction leaves, and the next fetch reads
at that pc: the poll touches neither (R92, R93). -/
theorem step_fetches_at_target {s u : State} (hrun : s.halted = false)
    (h : exec (decode (fetchWord s)) (fetchEffect s) = .next u) :
    ∃ v, step s = .next v ∧ v.pc = u.pc ∧ v.psr = u.psr ∧ fetchWord v = memReadValue u.pc v :=
  ⟨(poll u).1, step_of_exec hrun h, poll_pc u, poll_psr u, by rw [fetchWord, poll_pc]⟩

/-! ### The obligations -/

/-- Settles O36: a control instruction only replaces pc, after the link if it is a call, so it takes no exception; the poll
keeps the new pc, so the next fetch reads there. -/
theorem controlInstructionsRaiseNothingAndHaveNoDelaySlot :
    Obligations.ControlInstructionsRaiseNothingAndHaveNoDelaySlot := by
  refine ⟨fun i s hi => ⟨?_, ?_⟩, fun target base s h => ⟨_, rfl, h⟩,
    fun nzp off s htaken => ⟨_, exec_br_of_taken off htaken, pcRelative9_toNat off s⟩,
    fun off s => ⟨_, rfl, pcRelative11_toNat off s⟩⟩
  · obtain ⟨t, ht⟩ := exec_answers_next i s
    exact ⟨t, ht, exec_control_frame hi ht⟩
  · rintro hrun rfl u hu
    obtain ⟨hpsr, _⟩ := exec_control_frame hi hu
    obtain ⟨v, hstep, hpc, hvpsr, hfetch⟩ := step_fetches_at_target hrun hu
    exact ⟨v, hstep, hpc, hvpsr.trans (hpsr.trans (fetchEffect_psr s)), hfetch⟩

/-- Settles O37: the link comes after the fetch has incremented pc, and neither the jump nor the poll writes x[7]. -/
theorem linkRegisterHoldsTheNextAddress : Obligations.LinkRegisterHoldsTheNextAddress := by
  intro s t hrun hcall hstep
  obtain ⟨target, hexec⟩ := exec_of_isCall hcall (fetchEffect s)
  cases (step_of_exec hrun hexec).symm.trans hstep
  calc (poll ((link (fetchEffect s)).setPc target)).1.reg 7#3
      _ = (link (fetchEffect s)).reg 7#3 := poll_reg _ _
      _ = (fetchEffect s).pc := link_reg_linkRegister _
      _ = s.pc + 1 := fetchEffect_pc s

/-- Settles O32: JMP reads its base register and replaces pc. -/
theorem jmpGoesToTheBaseRegister : Obligations.JmpGoesToTheBaseRegister :=
  ⟨fun _ => decode_of_opcode_jmp, decode_of_opcode_jmp (by decide), fun _ _ => ⟨_, rfl, rfl, rfl⟩⟩

/-- Settles O33: a call whose target is a sum from the incremented pc, which is also the link value. -/
theorem jsrLinksAndJumpsRelative : Obligations.JsrLinksAndJumpsRelative := by
  refine ⟨fun ir hop hmode => ?_,
    fun off s => ⟨_, rfl, link_reg_linkRegister s, pcRelative11_toNat off s, link_setPc_frame s _⟩⟩
  rw [decode_of_opcode_jsr hop, hmode]; rfl

/-- Settles O35: a call whose target is the content of the vector's cell; reading that cell reaches no latch. -/
theorem trapCallsThroughItsTable : Obligations.TrapCallsThroughItsTable :=
  ⟨fun _ => decode_of_opcode_trap,
    fun vect s => ⟨_, exec_trap vect s, link_reg_linkRegister s, rfl, link_setPc_frame s _⟩⟩

end Sys2Proof.Machine
end

section
/-! Proofs about every instruction at once: the few shapes an instruction's effect can have, and the canonical form of
memory, which each of them keeps. -/

namespace Sys2Proof.Machine

open Sys2Proof

/-! ### Reads reach the keyboard latch alone (R44, R50) -/

@[simp] theorem readsEffect_reg (reads : List Word) (s : State) (i : Reg) : (readsEffect reads s).reg i = s.reg i := by
  rw [readsEffect_eq_setKeyboardReady]; rfl
@[simp] theorem readsEffect_psr (reads : List Word) (s : State) : (readsEffect reads s).psr = s.psr := by
  rw [readsEffect_eq_setKeyboardReady]; rfl
@[simp] theorem readsEffect_savedUsp (reads : List Word) (s : State) : (readsEffect reads s).savedUsp = s.savedUsp := by
  rw [readsEffect_eq_setKeyboardReady]; rfl
@[simp] theorem readsEffect_savedSsp (reads : List Word) (s : State) : (readsEffect reads s).savedSsp = s.savedSsp := by
  rw [readsEffect_eq_setKeyboardReady]; rfl
@[simp] theorem readsEffect_ie (reads : List Word) (s : State) : (readsEffect reads s).ie = s.ie := by
  rw [readsEffect_eq_setKeyboardReady]; rfl
@[simp] theorem readsEffect_halted (reads : List Word) (s : State) : (readsEffect reads s).halted = s.halted := by
  rw [readsEffect_eq_setKeyboardReady]; rfl
@[simp] theorem readsEffect_displayValid (reads : List Word) (s : State) :
    (readsEffect reads s).displayValid = s.displayValid := by
  rw [readsEffect_eq_setKeyboardReady]; rfl
@[simp] theorem readsEffect_displayValue (reads : List Word) (s : State) :
    (readsEffect reads s).displayValue = s.displayValue := by
  rw [readsEffect_eq_setKeyboardReady]; rfl
@[simp] theorem readsEffect_mem (reads : List Word) (s : State) : (readsEffect reads s).mem = s.mem := by
  rw [readsEffect_eq_setKeyboardReady]; rfl
@[simp] theorem readsEffect_cell (reads : List Word) (s : State) (a : Word) : (readsEffect reads s).cell a = s.cell a := by
  rw [readsEffect_eq_setKeyboardReady]; rfl

/-- A read clears the keyboard latch or leaves it, and never sets it (R25, R50). -/
theorem keyboardReady_of_readsEffect {reads : List Word} {s : State} (h : (readsEffect reads s).keyboardReady = true) :
    s.keyboardReady = true := by
  rw [readsEffect_eq_setKeyboardReady, State.setKeyboardReady_keyboardReady] at h
  split at h
  · cases h
  · exact h

/-! ### The shapes of an effect -/

/-- The stores: ST, STI and STR. -/
def IsStore (i : Instr) : Prop :=
  (∃ sr off, i = .st sr off) ∨ (∃ sr off, i = .sti sr off) ∨ ∃ sr base off, i = .str sr base off

/-- The instructions that replace pc and do nothing else: BR and JMP. -/
def IsJump (i : Instr) : Prop := (∃ nzp off, i = .br nzp off) ∨ ∃ base, i = .jmp base

/-- The instruction takes an exception in `s`: opcode 1101 always, RTI in user mode (R171). -/
def TakesException (i : Instr) (s : State) : Prop := i = .reserved ∨ (i = .rti ∧ s.mode = .user)

/-- What an instruction can do to a state `s`, by the kind of instruction. -/
inductive ExecEffect (s : State) : Instr → State → Prop where
  | result {i : Instr} {dr : Reg} (reads : List Word) (v : Word) :
      resultRegister i = some dr → ExecEffect s i (writeResult dr v (readsEffect reads s))
  | store {i : Instr} (reads : List Word) (ea v : Word) :
      IsStore i → ExecEffect s i (memWrite ea v (readsEffect reads s))
  | jump {i : Instr} (target : Word) : IsJump i → ExecEffect s i (s.setPc target)
  | call {i : Instr} (target : Word) : IsCall i → ExecEffect s i ((link s).setPc target)
  | entry {i : Instr} (code : BitVec 8) : TakesException i s → ExecEffect s i (exceptionEntry code s)
  | handlerReturn : s.mode = .supervisor → ExecEffect s .rti (exceptionReturn s)

/-- Every instruction has one of these effects (R98). -/
theorem execEffect_of_exec {i : Instr} {s t : State} (h : exec i s = .next t) : ExecEffect s i t := by
  have call_effect (hi : IsCall i) : ExecEffect s i t := by
    obtain ⟨target, ht⟩ := exec_of_isCall hi s
    cases ht.symm.trans h
    exact .call target hi
  cases i with
  | br nzp off =>
    by_cases htaken : nzp &&& s.flags = 0#3
    · cases (exec_br_of_not_taken off htaken).symm.trans h
      exact .jump s.pc (.inl ⟨nzp, off, rfl⟩)
    · cases (exec_br_of_taken off htaken).symm.trans h
      exact .jump _ (.inl ⟨nzp, off, rfl⟩)
  | jmp base => cases h; exact .jump _ (.inr ⟨base, rfl⟩)
  | jsr off => exact call_effect (.inl ⟨off, rfl⟩)
  | jsrr base => exact call_effect (.inr (.inl ⟨base, rfl⟩))
  | trap vect => exact call_effect (.inr (.inr ⟨vect, rfl⟩))
  | addReg | addImm | andReg | andImm | not | lea => cases h; exact .result [] _ rfl
  | ld dr off => cases h; exact .result [pcRelative9 off s] _ rfl
  | ldr dr base off => cases h; exact .result [baseOffset6 base off s] _ rfl
  | ldi dr off => cases h; exact .result [pcRelative9 off s, memReadValue (pcRelative9 off s) s] _ rfl
  | st sr off => cases h; exact .store [] _ _ (.inl ⟨sr, off, rfl⟩)
  | sti sr off => cases h; exact .store [pcRelative9 off s] _ _ (.inr (.inl ⟨sr, off, rfl⟩))
  | str sr base off => cases h; exact .store [] _ _ (.inr (.inr ⟨sr, base, off, rfl⟩))
  | reserved => cases h; exact .entry _ (.inl rfl)
  | rti =>
    cases hm : s.mode with
    | user => cases (exec_rti_of_user hm).symm.trans h; exact .entry _ (.inr ⟨rfl, hm⟩)
    | supervisor => cases (exec_rti_of_supervisor hm).symm.trans h; exact .handlerReturn hm

/-! ### The canonical form of memory -/

/-- Only stores and entries write memory at all, and they write it by MemWrite. -/
theorem ExecEffect.wf {i : Instr} {s t : State} (h : ExecEffect s i t) (hs : Memory.wf s.mem) : Memory.wf t.mem := by
  cases h with
  | store reads ea v _ => exact memWrite_wf ea v (by rwa [readsEffect_mem])
  | entry code _ => exact exceptionEntry_wf code hs
  | result => rwa [writeResult_mem, readsEffect_mem]
  | jump | call => exact hs
  | handlerReturn => rwa [exceptionReturn_mem]

/-- A CLOCK keeps the invariant: the fetch and the poll leave memory alone, and the instruction keeps the form. -/
theorem machineInv_of_clock {s t : State} {e : Event} (hs : MachineInv s) (h : clock s = .next (t, e)) : MachineInv t := by
  rcases clock_cases h with ⟨_, hpoll⟩ | ⟨_, u, hexec, hpoll⟩
  · have ht : (poll s).1.mem = t.mem := by rw [hpoll]
    rwa [MachineInv, ← ht, poll_mem]
  · have hu : Memory.wf u.mem := (execEffect_of_exec hexec).wf (by rwa [fetchEffect_mem])
    have ht : (poll u).1.mem = t.mem := by rw [hpoll]
    rwa [MachineInv, ← ht, poll_mem]

theorem machineInv_start {s : State} (hs : MachineInv s) : MachineInv (start s) :=
  State.setCell_wf (s := s.setHalted false) hs _ _

theorem machineInv_interrupt (vec : BitVec 8) (pri : BitVec 3) (data : Word) {s : State} (hs : MachineInv s) :
    MachineInv (interrupt vec pri data s).1 := by
  rcases interrupt_cases vec pri data s with ⟨_, h⟩ | ⟨_, _, h⟩ | ⟨_, _, h⟩ <;> rw [h]
  · exact hs
  · exact hs
  · exact interruptEntry_wf vec pri data hs

@[simp] theorem hostRegWrite_mem (r : HostReg) (v : Word) (s : State) : (hostRegWrite r v s).mem = s.mem := by
  cases r <;> rfl

/-- Settles O2: the memory of the reset state lists no cell. -/
theorem resetMeetsTheInvariant : Obligations.ResetMeetsTheInvariant :=
  ⟨List.Pairwise.nil, fun _ hc => absurd hc List.not_mem_nil⟩

/-- Settles O3: a step is a CLOCK, and each shape of an instruction's effect keeps the canonical form. -/
theorem everyStepKeepsMemoryCanonical : Obligations.EveryStepKeepsMemoryCanonical := by
  intro s t hs hstep
  obtain ⟨e, hclock⟩ := step_eq_next_iff.mp hstep
  exact machineInv_of_clock hs hclock

/-- Settles O4: the operations that write memory do it by MemWrite or, in START, by one cell; RESET leaves it empty. -/
theorem everyOperationKeepsMemoryCanonical : Obligations.EveryOperationKeepsMemoryCanonical := by
  intro op s t r hs hop
  cases op with
  | clock =>
    obtain ⟨u, e, hclock⟩ := clock_answers_next s
    cases (perform_clock_of_clock hclock).symm.trans hop
    exact machineInv_of_clock hs hclock
  | reset => cases hop; exact resetMeetsTheInvariant
  | start => cases hop; exact machineInv_start hs
  | interrupt vec pri data => cases hop; exact machineInv_interrupt vec pri data hs
  | hostMemRead addr => cases hop; rwa [MachineInv, memReadEffect_mem]
  | hostMemWrite addr v => cases hop; exact memWrite_wf addr v hs
  | hostRegRead reg => cases hop; exact hs
  | hostRegWrite reg v => cases hop; rwa [MachineInv, hostRegWrite_mem]

/-- Settles O5: by induction on the operations since RESET, each of which keeps the canonical form; a CLOCK ends in a state
from any state whatever. -/
theorem reachableStatesAreSafe : Obligations.ReachableStatesAreSafe := by
  intro s hreach
  refine ⟨?_, ?_⟩
  · induction hreach with
    | reset => exact resetMeetsTheInvariant
    | perform _ hop ih => exact everyOperationKeepsMemoryCanonical _ _ _ _ ih hop
  · obtain ⟨t, e, hclock⟩ := clock_answers_next s
    exact ⟨t, step_eq_next_iff.mpr ⟨e, hclock⟩⟩

/-! ### Canonical memories as data -/

/-- A listed cell is what its address reads. -/
theorem Memory.read_of_mem {m : Memory} (hsorted : m.Pairwise fun c d => c.1 < d.1) {c : Cell} (hc : c ∈ m) :
    Memory.read m c.1 = c.2 := by
  induction m with
  | nil => cases hc
  | cons d m ih =>
    obtain ⟨hd, htail⟩ := List.pairwise_cons.mp hsorted
    rcases List.mem_cons.mp hc with rfl | hc
    · exact if_pos rfl
    · exact (if_neg (Nat.ne_of_lt (hd c hc))).trans (ih htail hc)

/-- An address that reads anything but the reset value is listed. -/
theorem Memory.mem_of_read_ne {m : Memory} {a : Nat} (h : Memory.read m a ≠ Params.unlistedCell) :
    (a, Memory.read m a) ∈ m := by
  induction m with
  | nil => exact absurd rfl h
  | cons d m ih =>
    obtain ⟨k, v⟩ := d
    by_cases hk : k = a
    · subst hk; simp [Memory.read]
    · simp only [Memory.read, hk, if_false] at h ⊢
      exact List.mem_cons_of_mem _ (ih h)

/-- In canonical memory the listed cells are the addresses that do not read the reset value, with what they read. -/
theorem Memory.mem_iff_read {m : Memory} (hm : Memory.wf m) (c : Cell) :
    c ∈ m ↔ c.1 < 65536 ∧ c.2 ≠ Params.unlistedCell ∧ Memory.read m c.1 = c.2 := by
  obtain ⟨hsorted, hlisted⟩ := hm
  constructor
  · intro hc
    obtain ⟨hlt, hne⟩ := hlisted c hc
    exact ⟨hlt, hne, Memory.read_of_mem hsorted hc⟩
  rintro ⟨_, hne, hread⟩
  have hmem := Memory.mem_of_read_ne (m := m) (a := c.1) (hread ▸ hne)
  rwa [hread] at hmem

theorem State.read_mem_of_lt (s : State) {a : Nat} (ha : a < 65536) :
    Memory.read s.mem a = s.cell (BitVec.ofNat 16 a) := by
  rw [State.cell, BitVec.toNat_ofNat, Nat.mod_eq_of_lt ha]

/-- Settles O6: what is read decides which cells are listed, and the listed cells stand in one order, by rising address. -/
theorem canonicalMemoriesAreEqualData : Obligations.CanonicalMemoriesAreEqualData := by
  intro s t hs ht hcells
  refine List.Pairwise.eq_of_mem_iff hs.1 ht.1 fun c => ?_
  rw [Memory.mem_iff_read hs, Memory.mem_iff_read ht]
  refine and_congr_right fun hlt => ?_
  rw [s.read_mem_of_lt hlt, t.read_mem_of_lt hlt, hcells]

end Sys2Proof.Machine
end

section
/-! Proofs about the encoding: the format a word has, how the encoder puts its fields back, and that the decoder undoes the
encoder. -/

namespace Sys2Proof.Machine

open Sys2Proof

/-! ### Fields and their places (R72) -/

/-- A field taken out of a word and put back at its place is the word under the mask of that place. -/
theorem place_extractLsb' (w : Word) (lo n : Nat) : place (w.extractLsb' lo n) lo = w &&& place (BitVec.allOnes n) lo := by
  refine Laws.EncodeMatchesRow.word_ext fun k hk => ?_
  by_cases hlo : k < lo
  · simp [place, hlo]
  · have hsum : lo + (k - lo) = k := by omega
    by_cases hn : k - lo < n <;> simp [place, hk, hlo, hn, hsum]

theorem place_fieldDR (w : Word) : place (fieldDR w) 9 = w &&& 0x0E00#16 := place_extractLsb' w 9 3
theorem place_fieldSR1 (w : Word) : place (fieldSR1 w) 6 = w &&& 0x01C0#16 := place_extractLsb' w 6 3
theorem place_fieldSR2 (w : Word) : place (fieldSR2 w) 0 = w &&& 0x0007#16 := place_extractLsb' w 0 3
theorem place_fieldNzp (w : Word) : place (fieldNzp w) 9 = w &&& 0x0E00#16 := place_extractLsb' w 9 3
theorem place_fieldImm5 (w : Word) : place (fieldImm5 w) 0 = w &&& 0x001F#16 := place_extractLsb' w 0 5
theorem place_fieldOffset6 (w : Word) : place (fieldOffset6 w) 0 = w &&& 0x003F#16 := place_extractLsb' w 0 6
theorem place_fieldPcOffset9 (w : Word) : place (fieldPcOffset9 w) 0 = w &&& 0x01FF#16 := place_extractLsb' w 0 9
theorem place_fieldPcOffset11 (w : Word) : place (fieldPcOffset11 w) 0 = w &&& 0x07FF#16 := place_extractLsb' w 0 11
theorem place_fieldTrapvect8 (w : Word) : place (fieldTrapvect8 w) 0 = w &&& 0x00FF#16 := place_extractLsb' w 0 8

/-- The opcode bits of a word are its opcode's pattern. -/
theorem and_opcode_mask {w p : Word} {op : BitVec 4} (hop : w.extractLsb' 12 4 = op)
    (hp : place op 12 = p := by decide) : w &&& 0xF000#16 = p := by
  subst hop hp; exact (place_extractLsb' w 12 4).symm

/-- A single bit of a word, at its place. -/
theorem and_bit_mask {w : Word} {k : Nat} {b : Bool} (h : w.getLsbD k = b) :
    w &&& place 1#1 k = place (BitVec.ofBool b) k := by
  have hbit : w.extractLsb' k 1 = BitVec.ofBool b := by
    ext i hi
    obtain rfl : i = 0 := by omega
    simp [h]
  rw [← hbit]
  exact (place_extractLsb' w k 1).symm

/-- The opcode bits and the mode bit of a word are the pattern of the opcode in that mode. -/
theorem and_mode_mask {w m p : Word} {op : BitVec 4} {k : Nat} {b : Bool} (hop : w.extractLsb' 12 4 = op)
    (hmode : w.getLsbD k = b) (hm : 0xF000#16 ||| place 1#1 k = m := by decide)
    (hp : place op 12 ||| place (BitVec.ofBool b) k = p := by decide) : w &&& m = p := by
  rw [← hm, ← hp, BitVec.and_or_distrib_left, and_opcode_mask hop rfl, and_bit_mask hmode]

/-! ### The format of a word (R73) -/

theorem decode_of_opcode_br {ir : Word} (h : ir.extractLsb' 12 4 = 0b0000#4) :
    decode ir = .br (fieldNzp ir) (fieldPcOffset9 ir) := by
  simp only [decode, getLsbD_of_opcode h, BitVec.reduceGetLsb]

theorem decode_of_opcode_rti {ir : Word} (h : ir.extractLsb' 12 4 = 0b1000#4) : decode ir = .rti := by
  simp only [decode, getLsbD_of_opcode h, BitVec.reduceGetLsb]

theorem decode_of_opcode_reserved {ir : Word} (h : ir.extractLsb' 12 4 = 0b1101#4) : decode ir = .reserved := by
  simp only [decode, getLsbD_of_opcode h, BitVec.reduceGetLsb]

/-- A word with the fixed bits of a row of R73 stands for the row's instruction, with its operands from its fields. -/
inductive Format (w : Word) : Instr → Prop where
  | br : w &&& 0xF000#16 = 0x0000#16 → Format w (.br (fieldNzp w) (fieldPcOffset9 w))
  | addReg : w &&& 0xF020#16 = 0x1000#16 → Format w (.addReg (fieldDR w) (fieldSR1 w) (fieldSR2 w))
  | addImm : w &&& 0xF020#16 = 0x1020#16 → Format w (.addImm (fieldDR w) (fieldSR1 w) (fieldImm5 w))
  | andReg : w &&& 0xF020#16 = 0x5000#16 → Format w (.andReg (fieldDR w) (fieldSR1 w) (fieldSR2 w))
  | andImm : w &&& 0xF020#16 = 0x5020#16 → Format w (.andImm (fieldDR w) (fieldSR1 w) (fieldImm5 w))
  | not : w &&& 0xF000#16 = 0x9000#16 → Format w (.not (fieldDR w) (fieldSR1 w))
  | ld : w &&& 0xF000#16 = 0x2000#16 → Format w (.ld (fieldDR w) (fieldPcOffset9 w))
  | ldi : w &&& 0xF000#16 = 0xA000#16 → Format w (.ldi (fieldDR w) (fieldPcOffset9 w))
  | ldr : w &&& 0xF000#16 = 0x6000#16 → Format w (.ldr (fieldDR w) (fieldSR1 w) (fieldOffset6 w))
  | lea : w &&& 0xF000#16 = 0xE000#16 → Format w (.lea (fieldDR w) (fieldPcOffset9 w))
  | st : w &&& 0xF000#16 = 0x3000#16 → Format w (.st (fieldDR w) (fieldPcOffset9 w))
  | sti : w &&& 0xF000#16 = 0xB000#16 → Format w (.sti (fieldDR w) (fieldPcOffset9 w))
  | str : w &&& 0xF000#16 = 0x7000#16 → Format w (.str (fieldDR w) (fieldSR1 w) (fieldOffset6 w))
  | jmp : w &&& 0xF000#16 = 0xC000#16 → Format w (.jmp (fieldSR1 w))
  | jsr : w &&& 0xF800#16 = 0x4800#16 → Format w (.jsr (fieldPcOffset11 w))
  | jsrr : w &&& 0xF800#16 = 0x4000#16 → Format w (.jsrr (fieldSR1 w))
  | trap : w &&& 0xF000#16 = 0xF000#16 → Format w (.trap (fieldTrapvect8 w))
  | rti : w &&& 0xF000#16 = 0x8000#16 → Format w .rti
  | reserved : w &&& 0xF000#16 = 0xD000#16 → Format w .reserved

/-- The sixteen opcodes. -/
theorem opcode_cases : ∀ op : BitVec 4,
    op = 0b0000#4 ∨ op = 0b0001#4 ∨ op = 0b0010#4 ∨ op = 0b0011#4 ∨ op = 0b0100#4 ∨ op = 0b0101#4 ∨ op = 0b0110#4 ∨
      op = 0b0111#4 ∨ op = 0b1000#4 ∨ op = 0b1001#4 ∨ op = 0b1010#4 ∨ op = 0b1011#4 ∨ op = 0b1100#4 ∨ op = 0b1101#4 ∨
      op = 0b1110#4 ∨ op = 0b1111#4 := by
  decide

/-- Every word has the format of the instruction it decodes to (R81). -/
theorem format_decode (w : Word) : Format w (decode w) := by
  rcases opcode_cases (w.extractLsb' 12 4) with
    h | h | h | h | h | h | h | h | h | h | h | h | h | h | h | h
  · rw [decode_of_opcode_br h]; exact .br (and_opcode_mask h)
  · rw [decode_of_opcode_add h]
    cases hmode : w.getLsbD 5
    · exact .addReg (and_mode_mask h hmode)
    · exact .addImm (and_mode_mask h hmode)
  · rw [decode_of_opcode_ld h]; exact .ld (and_opcode_mask h)
  · rw [decode_of_opcode_st h]; exact .st (and_opcode_mask h)
  · rw [decode_of_opcode_jsr h]
    cases hmode : w.getLsbD 11
    · exact .jsrr (and_mode_mask h hmode)
    · exact .jsr (and_mode_mask h hmode)
  · rw [decode_of_opcode_and h]
    cases hmode : w.getLsbD 5
    · exact .andReg (and_mode_mask h hmode)
    · exact .andImm (and_mode_mask h hmode)
  · rw [decode_of_opcode_ldr h]; exact .ldr (and_opcode_mask h)
  · rw [decode_of_opcode_str h]; exact .str (and_opcode_mask h)
  · rw [decode_of_opcode_rti h]; exact .rti (and_opcode_mask h)
  · rw [decode_of_opcode_not h]; exact .not (and_opcode_mask h)
  · rw [decode_of_opcode_ldi h]; exact .ldi (and_opcode_mask h)
  · rw [decode_of_opcode_sti h]; exact .sti (and_opcode_mask h)
  · rw [decode_of_opcode_jmp h]; exact .jmp (and_opcode_mask h)
  · rw [decode_of_opcode_reserved h]; exact .reserved (and_opcode_mask h)
  · rw [decode_of_opcode_lea h]; exact .lea (and_opcode_mask h)
  · rw [decode_of_opcode_trap h]; exact .trap (and_opcode_mask h)

end Sys2Proof.Machine
end

section
/-! Proofs about the encoding: the decoder undoes the encoder, and the encoder undoes the decoder on the used bits. -/

namespace Sys2Proof.Machine

open Sys2Proof

/-! ### Reading a placed field -/

@[simp] theorem extractLsb'_place_same {n : Nat} (v : BitVec n) (lo : Nat) (h : lo + n ≤ 16) :
    (place v lo).extractLsb' lo n = v := by
  ext k hk
  have hlt : lo + k < 16 := by omega
  simp [place, hlt, hk]

@[simp] theorem extractLsb'_place_disjoint {n : Nat} (v : BitVec n) (lo start len : Nat)
    (h : start + len ≤ lo ∨ lo + n ≤ start) : (place v lo).extractLsb' start len = 0#len := by
  ext k hk
  rcases h with hbelow | habove
  · have hlt : start + k < lo := by omega
    simp [place, hlt]
  · have hge : n ≤ start + k - lo := by omega
    simp [place, BitVec.getLsbD_of_ge v _ hge]

/-! ### Decoding an encoded instruction -/

/-- The fixed bits of an instruction's word select its own arm of the decoder, and each field is read where it was placed. -/
theorem decode_encode (i : Instr) : decode (encode i) = i := by
  cases i with
  | br nzp off =>
    rw [decode_of_opcode_br (by simp [encode, BitVec.extractLsb'_or])]
    simp [encode, BitVec.extractLsb'_or, fieldNzp, fieldPcOffset9]
  | addReg dr sr1 sr2 =>
    have hmode : (encode (.addReg dr sr1 sr2)).getLsbD 5 = false := by simp [encode, place]
    rw [decode_of_opcode_add (by simp [encode, BitVec.extractLsb'_or]), hmode]
    simp [encode, BitVec.extractLsb'_or, fieldDR, fieldSR1, fieldSR2]
  | addImm dr sr1 imm =>
    have hmode : (encode (.addImm dr sr1 imm)).getLsbD 5 = true := by simp [encode, place]
    rw [decode_of_opcode_add (by simp [encode, BitVec.extractLsb'_or]), hmode]
    simp [encode, BitVec.extractLsb'_or, fieldDR, fieldSR1, fieldImm5]
  | andReg dr sr1 sr2 =>
    have hmode : (encode (.andReg dr sr1 sr2)).getLsbD 5 = false := by simp [encode, place]
    rw [decode_of_opcode_and (by simp [encode, BitVec.extractLsb'_or]), hmode]
    simp [encode, BitVec.extractLsb'_or, fieldDR, fieldSR1, fieldSR2]
  | andImm dr sr1 imm =>
    have hmode : (encode (.andImm dr sr1 imm)).getLsbD 5 = true := by simp [encode, place]
    rw [decode_of_opcode_and (by simp [encode, BitVec.extractLsb'_or]), hmode]
    simp [encode, BitVec.extractLsb'_or, fieldDR, fieldSR1, fieldImm5]
  | not dr sr =>
    rw [decode_of_opcode_not (by simp [encode, BitVec.extractLsb'_or])]
    simp [encode, BitVec.extractLsb'_or, fieldDR, fieldSR1]
  | ld dr off =>
    rw [decode_of_opcode_ld (by simp [encode, BitVec.extractLsb'_or])]
    simp [encode, BitVec.extractLsb'_or, fieldDR, fieldPcOffset9]
  | ldi dr off =>
    rw [decode_of_opcode_ldi (by simp [encode, BitVec.extractLsb'_or])]
    simp [encode, BitVec.extractLsb'_or, fieldDR, fieldPcOffset9]
  | ldr dr base off =>
    rw [decode_of_opcode_ldr (by simp [encode, BitVec.extractLsb'_or])]
    simp [encode, BitVec.extractLsb'_or, fieldDR, fieldSR1, fieldOffset6]
  | lea dr off =>
    rw [decode_of_opcode_lea (by simp [encode, BitVec.extractLsb'_or])]
    simp [encode, BitVec.extractLsb'_or, fieldDR, fieldPcOffset9]
  | st sr off =>
    rw [decode_of_opcode_st (by simp [encode, BitVec.extractLsb'_or])]
    simp [encode, BitVec.extractLsb'_or, fieldDR, fieldPcOffset9]
  | sti sr off =>
    rw [decode_of_opcode_sti (by simp [encode, BitVec.extractLsb'_or])]
    simp [encode, BitVec.extractLsb'_or, fieldDR, fieldPcOffset9]
  | str sr base off =>
    rw [decode_of_opcode_str (by simp [encode, BitVec.extractLsb'_or])]
    simp [encode, BitVec.extractLsb'_or, fieldDR, fieldSR1, fieldOffset6]
  | jmp base =>
    rw [decode_of_opcode_jmp (by simp [encode, BitVec.extractLsb'_or])]
    simp [encode, BitVec.extractLsb'_or, fieldSR1]
  | jsr off =>
    have hmode : (encode (.jsr off)).getLsbD 11 = true := by simp [encode, place]
    rw [decode_of_opcode_jsr (by simp [encode, BitVec.extractLsb'_or]), hmode]
    simp [encode, BitVec.extractLsb'_or, fieldPcOffset11]
  | jsrr base =>
    have hmode : (encode (.jsrr base)).getLsbD 11 = false := by simp [encode, place]
    rw [decode_of_opcode_jsr (by simp [encode, BitVec.extractLsb'_or]), hmode]
    simp [encode, BitVec.extractLsb'_or, fieldSR1]
  | trap vect =>
    rw [decode_of_opcode_trap (by simp [encode, BitVec.extractLsb'_or])]
    simp [encode, BitVec.extractLsb'_or, fieldTrapvect8]
  | rti => exact decode_of_opcode_rti (by decide)
  | reserved => exact decode_of_opcode_reserved (by decide)

/-- Settles O8: the decoder undoes the encoder on each of the nineteen constructors. -/
theorem decodeOfEncodeIsTheInstruction : Obligations.DecodeOfEncodeIsTheInstruction := decode_encode

/-! ### Encoding a decoded word -/

/-- The bits of its word that an instruction's format uses (R73). -/
def formatUsedBits : Instr → Word
  | .addReg _ _ _ | .andReg _ _ _ => 0xFFE7#16
  | .not _ _ => 0xFFC0#16
  | .jmp _ => 0xF1C0#16
  | .jsrr _ => 0xF9C0#16
  | .trap _ => 0xF0FF#16
  | .rti | .reserved => 0xF000#16
  | _ => 0xFFFF#16

/-- What the encoder puts into the other bits (R73). -/
def formatFill : Instr → Word
  | .not _ _ => 0x003F#16
  | _ => 0x0000#16

/-- The encoder puts each field back at its place, the fixed bits as the word had them, and the fill beside them. -/
theorem encode_of_format {w : Word} {i : Instr} (h : Format w i) : encode i = w &&& formatUsedBits i ||| formatFill i := by
  cases h
  case rti h => exact h.symm.trans BitVec.or_zero.symm
  case reserved h => exact h.symm.trans BitVec.or_zero.symm
  case not h =>
    have hpattern : 0x903F#16 = 0x9000#16 ||| 0x003F#16 := by decide
    have hused : w &&& 0xFFC0#16 = w &&& 0xF000#16 ||| w &&& 0x0E00#16 ||| w &&& 0x01C0#16 := by
      simp only [← BitVec.and_or_distrib_left, BitVec.reduceOr]
    simp only [encode, formatUsedBits, formatFill, place_fieldDR, place_fieldSR1, hpattern, hused, h]
    ac_rfl
  all_goals
    next h =>
      simp only [encode, formatUsedBits, formatFill, place_fieldDR, place_fieldSR1, place_fieldSR2, place_fieldNzp,
        place_fieldImm5, place_fieldOffset6, place_fieldPcOffset9, place_fieldPcOffset11, place_fieldTrapvect8,
        BitVec.or_zero]
      rw [← h]
      simp only [← BitVec.and_or_distrib_left, BitVec.reduceOr]

/-! ### Used bits and fill, as the model reads them off the word -/

/-- Only the opcodes with a mode bit need a look beyond the opcode: ADD, JSR and AND. -/
theorem usedBits_eq (w : Word) : usedBits w = formatUsedBits (decode w) := by
  rcases opcode_cases (w.extractLsb' 12 4) with h | h | h | h | h | h | h | h | h | h | h | h | h | h | h | h
  all_goals simp only [usedBits, decode, getLsbD_of_opcode h, BitVec.reduceGetLsb, formatUsedBits]
  · cases w.getLsbD 5 <;> rfl
  · cases w.getLsbD 11 <;> rfl
  · cases w.getLsbD 5 <;> rfl

theorem conventionalFill_eq (w : Word) : conventionalFill w = formatFill (decode w) := by
  rcases opcode_cases (w.extractLsb' 12 4) with h | h | h | h | h | h | h | h | h | h | h | h | h | h | h | h
  all_goals simp only [conventionalFill, decode, getLsbD_of_opcode h, BitVec.reduceGetLsb, formatFill]
  · cases w.getLsbD 5 <;> rfl
  · cases w.getLsbD 11 <;> rfl
  · cases w.getLsbD 5 <;> rfl

/-- The fill depends on the opcode alone. -/
theorem conventionalFill_congr {v w : Word} (h : v.extractLsb' 12 4 = w.extractLsb' 12 4) :
    conventionalFill v = conventionalFill w := by
  simp only [conventionalFill, getLsbD_of_opcode h, getLsbD_of_opcode (ir := w) rfl]

theorem formatFill_and_formatUsedBits (i : Instr) : formatFill i &&& formatUsedBits i = 0#16 := by
  cases i <;> simp [formatFill, formatUsedBits]

/-- Every format uses the four opcode bits. -/
theorem formatUsedBits_opcode (i : Instr) : (formatUsedBits i).extractLsb' 12 4 = 0b1111#4 := by
  cases i <;> simp [formatUsedBits]

theorem conventionalFill_and_usedBits (w : Word) : conventionalFill w &&& usedBits w = 0#16 := by
  rw [conventionalFill_eq, usedBits_eq, formatFill_and_formatUsedBits]

theorem opcode_and_usedBits (w : Word) : (w &&& usedBits w).extractLsb' 12 4 = w.extractLsb' 12 4 := by
  rw [BitVec.extractLsb'_and, usedBits_eq, formatUsedBits_opcode]
  exact BitVec.and_allOnes

/-- Encoding a decoded word keeps its used bits and gives its ignored bits their conventional values (R73). -/
theorem encode_decode (w : Word) : encode (decode w) = w &&& usedBits w ||| conventionalFill w := by
  rw [usedBits_eq, conventionalFill_eq]
  exact encode_of_format (format_decode w)

theorem encode_decode_and_usedBits (w : Word) : encode (decode w) &&& usedBits w = w &&& usedBits w := by
  rw [encode_decode, BitVec.and_or_distrib_right, conventionalFill_and_usedBits, BitVec.or_zero, BitVec.and_assoc,
    BitVec.and_self]

/-- A word is its bits under a mask with `fill` elsewhere exactly when `fill` is what it holds elsewhere. -/
theorem masked_or_fill_eq_iff {w used fill : Word} (hfill : fill &&& used = 0#16) :
    w &&& used ||| fill = w ↔ w &&& ~~~used = fill := by
  have hoff : fill &&& ~~~used = fill := by
    calc fill &&& ~~~used
        _ = fill &&& used ||| fill &&& ~~~used := by rw [hfill, BitVec.zero_or]
        _ = fill := by rw [← BitVec.and_or_distrib_left, BitVec.or_not_self, BitVec.and_allOnes]
  constructor
  · intro h
    calc w &&& ~~~used
        _ = (w &&& used ||| fill) &&& ~~~used := by rw [h]
        _ = fill := by
          rw [BitVec.and_or_distrib_right, BitVec.and_assoc, BitVec.and_not_self, hoff]; simp
  · intro h
    rw [← h, ← BitVec.and_or_distrib_left, BitVec.or_not_self, BitVec.and_allOnes]

theorem encode_injective {i j : Instr} (h : encode i = encode j) : i = j := by
  rw [← decode_encode i, h, decode_encode]

/-- Settles O9: the encoder gives back the used bits with the conventional fill beside them. -/
theorem encodeOfDecodeKeepsTheUsedBits : Obligations.EncodeOfDecodeKeepsTheUsedBits := by
  refine fun w => ⟨encode_decode_and_usedBits w, ?_⟩
  rw [encode_decode, masked_or_fill_eq_iff (conventionalFill_and_usedBits w), wellFormedWord, beq_iff_eq]

/-- Settles O10: the instruction gives the used bits back through the encoder; the used bits, which contain the opcode and so
give the fill, give the encoding back, which names the instruction. -/
theorem onlyTheUsedBitsDecide : Obligations.OnlyTheUsedBitsDecide := by
  intro v w
  constructor
  · intro h
    calc v &&& usedBits v
        _ = encode (decode v) &&& usedBits v := (encode_decode_and_usedBits v).symm
        _ = encode (decode w) &&& usedBits w := by rw [usedBits_eq, usedBits_eq, h]
        _ = w &&& usedBits w := encode_decode_and_usedBits w
  · intro h
    have hop : v.extractLsb' 12 4 = w.extractLsb' 12 4 := by
      rw [← opcode_and_usedBits v, ← opcode_and_usedBits w, h]
    exact encode_injective (by rw [encode_decode, encode_decode, h, conventionalFill_congr hop])

/-! ### The opcode table (R81) -/

theorem row_of_format {w : Word} {i : Instr} (h : Format w i) :
    ∃ r, opcodeTable[rowIndex i]? = some r ∧ w &&& r.mask = r.pattern := by
  cases h <;> exact ⟨_, rfl, by assumption⟩

/-- Two rows that both match a word agree on the bits that both fix. -/
theorem pattern_and_mask_of_matches {w : Word} {r q : OpcodeRow} (hr : w &&& r.mask = r.pattern)
    (hq : w &&& q.mask = q.pattern) : r.pattern &&& q.mask = q.pattern &&& r.mask := by
  rw [← hr, ← hq]; ac_rfl

/-- Only a row and itself agree on the bits that both fix. -/
theorem opcodeTable_disjoint : ∀ p ∈ opcodeTable.zipIdx, ∀ q ∈ opcodeTable.zipIdx,
    p.1.pattern &&& q.1.mask = q.1.pattern &&& p.1.mask → p.2 = q.2 := by
  decide

/-- Settles O11: the fixed bits of a word's format are its row's, and no other row agrees with that row on the bits both
fix. -/
theorem everyWordMatchesOneTableRow : Obligations.EveryWordMatchesOneTableRow := by
  intro w
  obtain ⟨r, hrow, hmatch⟩ := row_of_format (format_decode w)
  refine ⟨⟨r, hrow, hmatch⟩, fun k q hk hq => ?_⟩
  exact opcodeTable_disjoint (q, k) (List.mem_zipIdx_iff_getElem?.mpr hk) (r, _) (List.mem_zipIdx_iff_getElem?.mpr hrow)
    (pattern_and_mask_of_matches hq hmatch)

/-- Settles O7: fifteen closed words, each decoded. -/
theorem wordsWrittenFromTheFormatsDecode : Obligations.WordsWrittenFromTheFormatsDecode := by
  unfold Obligations.WordsWrittenFromTheFormatsDecode
  decide

end Sys2Proof.Machine
end

section
/-! Proofs of what instructions and CLOCKs cannot do: each follows from the shapes an instruction's effect can have. -/

namespace Sys2Proof.Machine

open Sys2Proof

/-! ### General registers, memory and the display latch -/

theorem writtenRegisters_of_result {i : Instr} {dr : Reg} (h : resultRegister i = some dr) : writtenRegisters i = [dr] := by
  cases i <;> cases h <;> rfl

theorem writtenRegisters_of_isCall {i : Instr} (h : IsCall i) : writtenRegisters i = [7#3] := by
  rcases h with ⟨_, rfl⟩ | ⟨_, rfl⟩ | ⟨_, rfl⟩ <;> rfl

theorem writtenRegisters_of_takesException {i : Instr} {s : State} (h : TakesException i s) : writtenRegisters i = [6#3] := by
  rcases h with rfl | ⟨rfl, _⟩ <;> rfl

theorem contextSave_regsKept (s : State) : RegsKeptExcept [6#3] s (contextSave s) := by
  intro i hi
  have hne : Config.stackPointer ≠ i := fun h => hi (List.mem_singleton.mpr h.symm)
  rw [contextSave_reg, if_neg hne]

theorem exceptionEntry_regsKept (code : BitVec 8) (s : State) : RegsKeptExcept [6#3] s (exceptionEntry code s) :=
  fun i hi => (exceptionEntry_reg code s i).trans (contextSave_regsKept s i hi)

theorem exceptionReturn_regsKept (s : State) : RegsKeptExcept [6#3] s (exceptionReturn s) := by
  intro i hi
  have hne : Config.stackPointer ≠ i := fun h => hi (List.mem_singleton.mpr h.symm)
  rw [exceptionReturn_reg, if_neg hne]

/-- Settles O48: one line per shape of effect. -/
theorem onlyNamedRegistersAreWritten : Obligations.OnlyNamedRegistersAreWritten := by
  intro i s t hexec
  cases execEffect_of_exec hexec with
  | @result _ dr reads v hi =>
    rw [writtenRegisters_of_result hi]
    intro j hj
    rw [writeResult_regsKept dr v _ j hj, readsEffect_reg]
  | store reads ea v _ => intro j _; rw [memWrite_reg, readsEffect_reg]
  | jump target _ => intro j _; rfl
  | call target hi => rw [writtenRegisters_of_isCall hi]; exact link_setPc_regsKept s target
  | entry code hi => rw [writtenRegisters_of_takesException hi]; exact exceptionEntry_regsKept code s
  | handlerReturn _ => exact exceptionReturn_regsKept s

/-- Settles O49: the shapes left when the stores and the exceptions are taken away keep memory and the display latch. -/
theorem onlyStoresAndExceptionsWriteMemory : Obligations.OnlyStoresAndExceptionsWriteMemory := by
  intro i s t hexec hst hsti hstr hreserved hrti
  cases execEffect_of_exec hexec with
  | result reads v _ => exact ⟨fun a => by simp, by simp, by simp⟩
  | store reads ea v hi =>
    rcases hi with ⟨sr, off, rfl⟩ | ⟨sr, off, rfl⟩ | ⟨sr, base, off, rfl⟩
    · exact absurd rfl (hst sr off)
    · exact absurd rfl (hsti sr off)
    · exact absurd rfl (hstr sr base off)
  | jump target _ => exact ⟨fun _ => rfl, rfl, rfl⟩
  | call target _ => exact ⟨fun _ => rfl, rfl, rfl⟩
  | entry code hi =>
    rcases hi with rfl | ⟨rfl, hm⟩
    · exact absurd rfl hreserved
    · rw [hrti rfl] at hm; cases hm
  | handlerReturn _ => exact ⟨exceptionReturn_cell s, exceptionReturn_displayValid s, exceptionReturn_displayValue s⟩

/-! ### psr -/

/-- The three things an instruction can do to psr: keep bits 15:3, enter supervisor mode and keep all else (an exception),
or load it whole (RTI in supervisor mode). -/
theorem exec_psr_cases {i : Instr} {s t : State} (h : exec i s = .next t) :
    (∀ k, 3 ≤ k → k < 16 → t.psr.getLsbD k = s.psr.getLsbD k) ∨
      (TakesException i s ∧ t.psr = psrToSupervisor s.psr) ∨ (i = .rti ∧ s.mode = .supervisor) := by
  cases execEffect_of_exec h with
  | result reads v _ =>
    refine .inl fun k hk hk' => ?_
    rw [writeResult_psr, psrWithFlags_getLsbD _ _ k hk hk', readsEffect_psr]
  | store reads ea v _ => exact .inl fun k _ _ => by rw [memWrite_psr, readsEffect_psr]
  | jump target _ => exact .inl fun _ _ _ => rfl
  | call target _ => exact .inl fun _ _ _ => rfl
  | entry code hi => exact .inr (.inl ⟨hi, exceptionEntry_psr code s⟩)
  | handlerReturn hm => exact .inr (.inr ⟨rfl, hm⟩)

/-- The flags pattern put into psr[2:0] of a word that has it already changes nothing. -/
theorem psrWithFlags_psrFlags (q : Word) : psrWithFlags q (psrFlags q) = q := by
  refine Laws.EncodeMatchesRow.word_ext fun k hk => ?_
  by_cases hlow : k < 3
  · rw [psrWithFlags_getLsbD_low _ _ k hlow]
    simp [psrFlags, hlow]
  · exact psrWithFlags_getLsbD q _ k (by omega) hk

/-- A result is the same whatever psr[15:3] holds, and keeps it. -/
theorem writeResult_setPsr (dr : Reg) (v q : Word) (s : State) :
    writeResult dr v (s.setPsr q) = (writeResult dr v s).setPsr (psrWithFlags q (writeResult dr v s).flags) := by
  rw [State.flags, writeResult_psr, psrWithFlags_flags]; rfl

theorem loadFrom_setPsr (dr : Reg) (a q : Word) (s : State) :
    loadFrom dr a (s.setPsr q) = (loadFrom dr a s).setPsr (psrWithFlags q (loadFrom dr a s).flags) := by
  rw [loadFrom, memReadEffect_setPsr, writeResult_setPsr]; rfl

/-- An instruction but RTI and opcode 1101 reads of psr at most the flags: with another word in psr that has the same flags it
ends in the same state, but for psr, where the new flags stand beside that word's other bits (R18, R195). -/
theorem exec_setPsr {i : Instr} {s t : State} {q : Word} (hrti : i ≠ .rti) (hreserved : i ≠ .reserved)
    (hq : psrFlags q = s.flags) (h : exec i s = .next t) :
    exec i (s.setPsr q) = .next (t.setPsr (psrWithFlags q t.flags)) := by
  have kept (ht : t.flags = s.flags) : psrWithFlags q t.flags = q := by
    rw [ht, ← hq, psrWithFlags_psrFlags]
  cases i with
  | rti => exact absurd rfl hrti
  | reserved => exact absurd rfl hreserved
  | addReg | addImm | andReg | andImm | not | lea => cases h; exact congrArg _ (writeResult_setPsr _ _ q s)
  | ld | ldr => cases h; exact congrArg _ (loadFrom_setPsr _ _ q s)
  | ldi dr off =>
    cases h
    refine congrArg Host.Outcome.next ?_
    rw [memReadEffect_setPsr]
    exact loadFrom_setPsr dr _ q _
  | br nzp off =>
    have hflags : (s.setPsr q).flags = s.flags := hq
    by_cases htaken : nzp &&& s.flags = 0#3
    · cases (exec_br_of_not_taken off htaken).symm.trans h
      rw [kept rfl]
      exact exec_br_of_not_taken off (by rwa [hflags])
    · cases (exec_br_of_taken off htaken).symm.trans h
      rw [kept rfl]
      exact exec_br_of_taken off (by rwa [hflags])
  | st | str => cases h; rw [kept (by simp [State.flags])]; exact congrArg _ (memWrite_setPsr _ _ q s)
  | sti sr off =>
    cases h
    rw [kept (by simp [State.flags])]
    refine congrArg Host.Outcome.next ?_
    rw [memReadEffect_setPsr]
    exact memWrite_setPsr _ _ q _
  | jmp | jsr | jsrr => cases h; rw [kept rfl]; rfl
  | trap vect =>
    cases (exec_trap vect s).symm.trans h
    rw [kept rfl]
    exact exec_trap vect (s.setPsr q)

/-- Settles O45: replacing psr commutes with the instruction, up to the flags. -/
theorem privilegeMattersToRtiOnly : Obligations.PrivilegeMattersToRtiOnly := by
  intro i s t q hrti hreserved hq hexec
  refine ⟨_, exec_setPsr hrti hreserved hq hexec, rfl, psrWithFlags_flags q t.flags, fun k hk hk' => ?_⟩
  refine ⟨psrWithFlags_getLsbD q _ k hk hk', ?_⟩
  rcases exec_psr_cases hexec with hkept | ⟨rfl | ⟨rfl, _⟩, _⟩ | ⟨rfl, _⟩
  · exact hkept k hk hk'
  · exact absurd rfl hreserved
  · exact absurd rfl hrti
  · exact absurd rfl hrti

end Sys2Proof.Machine
end

section
/-! Proofs about the CLOCK: what it runs, what its poll reports, and what no CLOCK does. -/

namespace Sys2Proof.Machine

open Sys2Proof

/-! ### The fetch and the poll -/

theorem fetchEffect_eq (s : State) : fetchEffect s = (memReadEffect s.pc s).setPc (s.pc + 1) := by
  rw [fetchEffect, memReadEffect_pc]

@[simp] theorem fetchEffect_mode (s : State) : (fetchEffect s).mode = s.mode := by
  rw [State.mode, fetchEffect_psr, State.mode]

theorem keyboardReady_of_fetchEffect {s : State} (h : (fetchEffect s).keyboardReady = true) : s.keyboardReady = true :=
  keyboardReady_of_readsEffect (reads := [s.pc]) h

/-- A pending character is reported, whole, before the run bit is looked at (R94, R96). -/
theorem poll_of_pending {s : State} (h : s.displayValid = true) : poll s = (s.clearDisplay, .char s.displayValue) :=
  if_pos h

theorem poll_of_running {s : State} (h : s.displayValid = false) (hrun : (s.cell 0xFFFE#16).getLsbD 15 = true) :
    poll s = (s, .none) := by
  rw [poll, h, runBit_eq, hrun]; rfl

theorem poll_of_stopped {s : State} (h : s.displayValid = false) (hrun : (s.cell 0xFFFE#16).getLsbD 15 = false) :
    poll s = (s.setHalted true, .halt) := by
  rw [poll, h, runBit_eq, hrun]; rfl

/-- A character comes out of the display latch and leaves all else alone. -/
theorem poll_eq_char {s t : State} {v : Word} (h : poll s = (t, .char v)) :
    s.displayValid = true ∧ v = s.displayValue ∧ t = s.clearDisplay := by
  rcases poll_cases s with ⟨hvalid, hpoll⟩ | ⟨_, _, hpoll⟩ | ⟨_, _, hpoll⟩ <;> cases hpoll.symm.trans h
  exact ⟨hvalid, rfl, rfl⟩

/-- Halt means that no character was pending and the run bit was 0. -/
theorem poll_eq_halt {s t : State} (h : poll s = (t, .halt)) :
    s.displayValid = false ∧ (s.cell 0xFFFE#16).getLsbD 15 = false ∧ t = s.setHalted true := by
  rcases poll_cases s with ⟨_, hpoll⟩ | ⟨_, _, hpoll⟩ | ⟨hvalid, hrun, hpoll⟩ <;> cases hpoll.symm.trans h
  exact ⟨hvalid, (runBit_eq s).symm.trans hrun, rfl⟩

theorem poll_displayValid (s : State) : (poll s).1.displayValid = false := by
  rcases poll_cases s with ⟨_, h⟩ | ⟨hvalid, _, h⟩ | ⟨hvalid, _, h⟩ <;> rw [h]
  · rfl
  · exact hvalid
  · exact hvalid

theorem poll_halted_of_halted {s : State} (hs : s.halted = true) : (poll s).1.halted = true := by
  rcases poll_cases s with ⟨_, h⟩ | ⟨_, _, h⟩ | ⟨_, _, h⟩ <;> rw [h]
  · exact hs
  · exact hs
  · rfl

/-! ### What a CLOCK runs -/

theorem step_of_clock {s t : State} {e : Event} (h : clock s = .next (t, e)) : step s = .next t :=
  step_eq_next_iff.mpr ⟨e, h⟩

/-- Settles O50: the fetch is one MemRead at pc with its effect and the increment. -/
theorem stepRunsTheDecodedInstruction : Obligations.StepRunsTheDecodedInstruction := by
  refine ⟨?_, fun s hhalted => ⟨clock_of_halted hhalted, step_of_clock (clock_of_halted hhalted)⟩⟩
  rintro s u i hrun rfl hexec
  rw [← fetchEffect_eq] at hexec
  exact ⟨clock_of_exec hrun hexec, step_of_exec hrun hexec⟩

/-- Settles O51: the three branches of the poll. -/
theorem pollReportsACharacterBeforeAHalt : Obligations.PollReportsACharacterBeforeAHalt :=
  fun _ => ⟨poll_of_pending, poll_of_running, poll_of_stopped⟩

/-- Whatever a CLOCK runs, its event is that of a poll. -/
theorem poll_of_clock {s t : State} {e : Event} (h : clock s = .next (t, e)) : ∃ u, poll u = (t, e) := by
  rcases clock_cases h with ⟨_, hpoll⟩ | ⟨_, u, _, hpoll⟩
  · exact ⟨s, hpoll⟩
  · exact ⟨u, hpoll⟩

/-- Settles O52: a poll that reports Halt leaves a halted core with no character and the run bit 0, so the next CLOCK is a
poll that reports Halt again. -/
theorem haltIsReportedAgainAndAgain : Obligations.HaltIsReportedAgainAndAgain := by
  intro s t hclock
  obtain ⟨u, hpoll⟩ := poll_of_clock hclock
  obtain ⟨hvalid, hrun, rfl⟩ := poll_eq_halt hpoll
  refine ⟨rfl, hrun, ?_⟩
  rw [clock_of_halted rfl, poll_of_stopped (s := u.setHalted true) hvalid hrun]; rfl

/-! ### Printing and halting -/

theorem ExecEffect.halted {i : Instr} {s t : State} (h : ExecEffect s i t) : t.halted = s.halted := by
  cases h <;> simp

/-- The run bit's register stands far enough from DDR that no entry's two pushes, at adjacent addresses, hit both. -/
theorem contextSave_prints_keeps_mcr {s : State} (hs : s.displayValid = false) (h : (contextSave s).displayValid = true) :
    (contextSave s).cell Config.mcrAddr = s.cell Config.mcrAddr := by
  have hpush : s.savedSsp = 0xFE08#16 ∨ s.savedSsp = 0xFE07#16 := by
    rw [contextSave_displayValid, hs] at h
    split at h
    · next hlow => left; bv_omega
    · split at h
      · next hhigh => right; bv_omega
      · cases h
  rw [contextSave_cell]
  rcases hpush with h | h <;> rw [h] <;> rfl

/-- An instruction that fills the empty display latch wrote DDR, and so left the cell of the run bit alone (R96). -/
theorem ExecEffect.prints_keeps_mcr {i : Instr} {s t : State} (h : ExecEffect s i t) (hs : s.displayValid = false)
    (ht : t.displayValid = true) : t.cell Config.mcrAddr = s.cell Config.mcrAddr := by
  cases h with
  | store reads ea v _ =>
    by_cases hddr : ea = Config.ddrAddr
    · subst hddr
      rw [memWrite_cell, if_neg (by decide), readsEffect_cell]
    · rw [memWrite_displayValid, if_neg hddr, readsEffect_displayValid, hs] at ht; cases ht
  | entry code _ =>
    rw [exceptionEntry_displayValid] at ht
    rw [exceptionEntry_cell, contextSave_prints_keeps_mcr hs ht]
  | result reads v _ => simp
  | jump | call => rfl
  | handlerReturn _ => exact exceptionReturn_cell s _

/-- Settles O53: the character comes from a write to DDR by the instruction, which then kept the run bit's cell. -/
theorem noInstructionPrintsAndHalts : Obligations.NoInstructionPrintsAndHalts := by
  intro s t v hrunning hempty hrun hclock
  rcases clock_cases hclock with ⟨hhalted, _⟩ | ⟨_, u, hexec, hpoll⟩
  · rw [hrunning] at hhalted; cases hhalted
  · obtain ⟨hvalid, _, rfl⟩ := poll_eq_char hpoll
    have heffect := execEffect_of_exec hexec
    have hmcr := heffect.prints_keeps_mcr ((fetchEffect_displayValid s).trans hempty) hvalid
    refine ⟨?_, ?_⟩
    · rw [State.clearDisplay_cell, hmcr, fetchEffect_cell, hrun]
    · rw [State.clearDisplay_halted, heffect.halted, fetchEffect_halted, hrunning]

/-! ### What no CLOCK does -/

theorem ExecEffect.ie {i : Instr} {s t : State} (h : ExecEffect s i t) : t.ie = s.ie := by
  cases h <;> simp

/-- The two pops of a return reach the keyboard latch as two reads do (R160, R175). -/
theorem exceptionReturn_keyboardReady (s : State) :
    (exceptionReturn s).keyboardReady = (readsEffect [s.reg 6#3, s.reg 6#3 + 1] s).keyboardReady := by
  simp [exceptionReturn, popEffect_keyboardReady, popEffect_reg, readsEffect, memReadEffect_keyboardReady]

theorem ExecEffect.keyboardReady {i : Instr} {s t : State} (h : ExecEffect s i t) (ht : t.keyboardReady = true) :
    s.keyboardReady = true := by
  cases h with
  | result reads v _ => exact keyboardReady_of_readsEffect (by simpa using ht)
  | store reads ea v _ => exact keyboardReady_of_readsEffect (by simpa using ht)
  | jump | call => exact ht
  | entry code _ => simpa using ht
  | handlerReturn _ => exact keyboardReady_of_readsEffect ((exceptionReturn_keyboardReady s).symm.trans ht)

/-- Only an exception entry writes saved_usp (R21). -/
theorem ExecEffect.savedUsp {i : Instr} {s t : State} (h : ExecEffect s i t) (ht : t.savedUsp ≠ s.savedUsp) :
    TakesException i s := by
  cases h with
  | entry code hi => exact hi
  | result | store | jump | call | handlerReturn => exact absurd (by simp) ht

/-- Only RTI in supervisor mode writes saved_ssp (R21). -/
theorem ExecEffect.savedSsp {i : Instr} {s t : State} (h : ExecEffect s i t) (ht : t.savedSsp ≠ s.savedSsp) :
    i = .rti ∧ s.mode = .supervisor := by
  cases h with
  | handlerReturn hm => exact ⟨rfl, hm⟩
  | result | store | jump | call | entry => exact absurd (by simp) ht

/-- A CLOCK that begins with a character pending reports one (R26, R94). -/
theorem clock_reports_pending {s t : State} {e : Event} (hclock : clock s = .next (t, e)) (hs : s.displayValid = true) :
    ∃ v, e = .char v ∧ (s.halted = true → v = s.displayValue) ∧ (v = s.displayValue ∨ t.cell 0xFE06#16 = v) := by
  rcases clock_cases hclock with ⟨_, hpoll⟩ | ⟨hrun, u, hexec, hpoll⟩
  · cases (poll_of_pending hs).symm.trans hpoll
    exact ⟨_, rfl, fun _ => rfl, .inl rfl⟩
  · have hfetched : StillPending s (fetchEffect s) := by simpa [StillPending] using hs
    obtain ⟨hvalid, hvalue⟩ := exec_pending hexec hfetched
    cases (poll_of_pending hvalid).symm.trans hpoll
    refine ⟨_, rfl, fun hhalted => ?_, hvalue⟩
    rw [hrun] at hhalted; cases hhalted

/-- Settles O47: a CLOCK of a halted core is its poll; that of a running core does what its instruction can do. -/
theorem whatNoStepDoes : Obligations.WhatNoStepDoes := by
  refine ⟨fun s t e => clock_reports_pending, fun s t hstep => ?_⟩
  rcases step_cases hstep with ⟨hhalted, rfl⟩ | ⟨hrun, u, hexec, rfl⟩
  · exact ⟨poll_ie s, fun h => (poll_keyboardReady s).symm.trans h, poll_halted_of_halted, poll_displayValid s,
      fun h => absurd (poll_savedUsp s) h, fun h => absurd (poll_savedSsp s) h⟩
  · have heffect := execEffect_of_exec hexec
    refine ⟨?_, fun h => ?_, fun h => ?_, poll_displayValid u, fun h => ⟨hrun, ?_⟩, fun h => ⟨hrun, ?_⟩⟩
    · rw [poll_ie, heffect.ie, fetchEffect_ie]
    · rw [poll_keyboardReady] at h
      exact keyboardReady_of_fetchEffect (heffect.keyboardReady h)
    · rw [hrun] at h; cases h
    · rw [poll_savedUsp, ← fetchEffect_savedUsp s] at h
      rcases heffect.savedUsp h with hreserved | ⟨hrti, hm⟩
      · exact .inr hreserved
      · exact .inl ⟨hrti, (fetchEffect_mode s).symm.trans hm⟩
    · rw [poll_savedSsp, ← fetchEffect_savedSsp s] at h
      obtain ⟨hrti, hm⟩ := heffect.savedSsp h
      exact ⟨hrti, (fetchEffect_mode s).symm.trans hm⟩

/-! ### Mode and priority -/

theorem State.mode_congr {s t : State} (h : t.psr.getLsbD 15 = s.psr.getLsbD 15) : t.mode = s.mode := by
  rw [State.mode, State.mode, psrMode, psrMode, h]

/-- What a CLOCK can do to psr, by what it executes. -/
theorem step_psr_cases {s t : State} (h : step s = .next t) :
    (∀ k, 3 ≤ k → k < 16 → t.psr.getLsbD k = s.psr.getLsbD k) ∨
      (s.halted = false ∧ TakesException (decode (fetchWord s)) s ∧ t.psr = psrToSupervisor s.psr) ∨
      (s.halted = false ∧ decode (fetchWord s) = .rti ∧ s.mode = .supervisor) := by
  rcases step_cases h with ⟨_, rfl⟩ | ⟨hrun, u, hexec, rfl⟩
  · exact .inl fun k _ _ => by rw [poll_psr]
  · have hcases := exec_psr_cases hexec
    rw [TakesException, fetchEffect_mode, fetchEffect_psr, ← poll_psr u] at hcases
    rcases hcases with hkept | ⟨hexception, hpsr⟩ | ⟨hrti, hm⟩
    · exact .inl hkept
    · exact .inr (.inl ⟨hrun, hexception, hpsr⟩)
    · exact .inr (.inr ⟨hrun, hrti, hm⟩)

/-- Settles O46: a CLOCK keeps psr[15:3], or enters supervisor mode by an exception and keeps the rest, or executes RTI in
supervisor mode. -/
theorem modeAndPriorityChangeOnlyByRtiAndExceptions : Obligations.ModeAndPriorityChangeOnlyByRtiAndExceptions := by
  intro s t hstep
  rcases step_psr_cases hstep with hkept | ⟨hrun, hexception, hpsr⟩ | ⟨hrun, hrti, hm⟩
  · have hmode : t.mode = s.mode := State.mode_congr (hkept 15 (by decide) (by decide))
    refine ⟨fun hs ht => ?_, fun hs ht => ?_, fun ⟨k, hk, hk', hne⟩ => absurd (hkept k hk (by omega)) hne⟩
    · rw [hmode, hs] at ht; cases ht
    · rw [hmode, hs] at ht; cases ht
  · have hmode : t.mode = .supervisor := by rw [State.mode, hpsr, psrToSupervisor_mode]
    refine ⟨fun _ ht => ?_, fun _ _ => ⟨hrun, ?_⟩, fun ⟨k, _, hk, hne⟩ => ?_⟩
    · rw [hmode] at ht; cases ht
    · exact hexception.symm.imp And.left id
    · rw [hpsr, psrToSupervisor_getLsbD _ k hk] at hne
      exact absurd rfl hne
  · refine ⟨fun _ _ => ⟨hrun, hrti⟩, fun hs _ => ?_, fun _ => ⟨hrun, hm, hrti⟩⟩
    rw [hm] at hs; cases hs

end Sys2Proof.Machine
end

section
/-! Proofs about exceptions, INTERRUPT and RTI: one description of an entry serves all three ways in, and one of the return
serves every way out. -/

namespace Sys2Proof.Machine

open Sys2Proof

/-! ### Entering a handler -/

theorem sub_one_sub_one (v : Word) : v - 1 - 1 = v - 2 := BitVec.sub_sub v 1 1

/-- The key of an INTERRUPT at the keyboard: the datum in KBDR's cell and the latch set (R180 step 3). -/
def deliverKey (data : Word) (s : State) : State := (memWrite Config.kbdrAddr data s).setKeyboardReady true

@[simp] theorem deliverKey_reg (data : Word) (s : State) (i : Reg) : (deliverKey data s).reg i = s.reg i := by
  simp [deliverKey]
@[simp] theorem deliverKey_pc (data : Word) (s : State) : (deliverKey data s).pc = s.pc := by simp [deliverKey]
@[simp] theorem deliverKey_psr (data : Word) (s : State) : (deliverKey data s).psr = s.psr := by simp [deliverKey]
@[simp] theorem deliverKey_savedSsp (data : Word) (s : State) : (deliverKey data s).savedSsp = s.savedSsp := by
  simp [deliverKey]
@[simp] theorem deliverKey_ie (data : Word) (s : State) : (deliverKey data s).ie = s.ie := by simp [deliverKey]
@[simp] theorem deliverKey_halted (data : Word) (s : State) : (deliverKey data s).halted = s.halted := by simp [deliverKey]
@[simp] theorem deliverKey_displayValid (data : Word) (s : State) :
    (deliverKey data s).displayValid = s.displayValid :=
  (memWrite_displayValid _ _ s).trans (if_neg (by decide))
@[simp] theorem deliverKey_displayValue (data : Word) (s : State) :
    (deliverKey data s).displayValue = s.displayValue :=
  (memWrite_displayValue _ _ s).trans (if_neg (by decide))
theorem deliverKey_cell (data : Word) (s : State) (a : Word) :
    (deliverKey data s).cell a = if a = 0xFE02#16 then data else s.cell a := by
  rw [deliverKey, State.setKeyboardReady_cell, memWrite_cell]
  simp only [eq_comm]

/-- The common part of exceptions and interrupts: context save, a new psr, and the jump through a vector cell. -/
def enterHandler (code : BitVec 8) (psr : Word) (s : State) : State :=
  jumpThrough (intVectorCell code) ((contextSave s).setPsr psr)

theorem exceptionEntry_eq_enterHandler (code : BitVec 8) (s : State) :
    exceptionEntry code s = enterHandler code (psrToSupervisor s.psr) s := by
  rw [exceptionEntry, contextSave_psr, enterHandler]

theorem interruptEntry_eq_enterHandler (vec : BitVec 8) (pri : BitVec 3) (data : Word) (s : State) :
    interruptEntry vec pri data s =
      enterHandler vec (psrToSupervisor (psrWithPriority s.psr pri)) (deliverKey data s) := by
  rw [← deliverKey_psr data s, ← contextSave_psr]; rfl

/-- What an entry with vector `code` and new psr `psr` leaves of `s` (R172, R173, R176). -/
structure HandlerEntered (code : BitVec 8) (psr : Word) (s t : State) : Prop where
  savedUsp : t.savedUsp = s.reg 6#3
  savedSsp : t.savedSsp = s.savedSsp
  stackPointer : t.reg 6#3 = s.savedSsp - 2
  regs : RegsKeptExcept [6#3] s t
  cells : ∀ a, t.cell a = if a = s.savedSsp - 2 then s.pc else if a = s.savedSsp - 1 then s.psr else s.cell a
  psr : t.psr = psr
  pc : t.pc = t.cell (0x0100#16 + code.setWidth 16)
  ie : t.ie = s.ie
  halted : t.halted = s.halted
  keyboard : KeyboardKept s t
  display : DisplayAfterPushes s t

/-- At most one of the two pushes lands on DDR, and it arms the latch with the word it pushes (R52, R172). -/
theorem contextSave_displayAfterPushes (s : State) : DisplayAfterPushes s (contextSave s) := by
  simp only [DisplayAfterPushes, DisplayKept, contextSave_displayValid, contextSave_displayValue, sub_one_sub_one]
  split
  · exact ⟨rfl, rfl⟩
  · split
    · exact ⟨rfl, rfl⟩
    · exact ⟨rfl, rfl⟩

theorem handlerEntered_enterHandler (code : BitVec 8) (psr : Word) (s : State) :
    HandlerEntered code psr s (enterHandler code psr s) where
  savedUsp := by simp [enterHandler]
  savedSsp := by simp [enterHandler]
  stackPointer := by
    rw [enterHandler, jumpThrough_reg, State.setPsr_reg, contextSave_reg, if_pos rfl, sub_one_sub_one]
  regs i hi := by simp [enterHandler, contextSave_regsKept s i hi]
  cells a := by
    rw [enterHandler, jumpThrough_cell, State.setPsr_cell, contextSave_cell, sub_one_sub_one]
    simp only [eq_comm]
  psr := by simp [enterHandler]
  pc := by simp [enterHandler, memReadValue_intVectorCell]; rfl
  ie := by simp [enterHandler]
  halted := by simp [enterHandler]
  keyboard := by simp [enterHandler, KeyboardKept]
  display := by simpa [enterHandler, DisplayAfterPushes, DisplayKept] using contextSave_displayAfterPushes s

theorem handlerEntered_exceptionEntry (code : BitVec 8) (s : State) :
    HandlerEntered code (psrToSupervisor s.psr) s (exceptionEntry code s) := by
  rw [exceptionEntry_eq_enterHandler]
  exact handlerEntered_enterHandler code _ s

theorem handlerEntered_interruptEntry (vec : BitVec 8) (pri : BitVec 3) (data : Word) (s : State) :
    HandlerEntered vec (psrToSupervisor (psrWithPriority s.psr pri)) (deliverKey data s) (interruptEntry vec pri data s) := by
  rw [interruptEntry_eq_enterHandler]
  exact handlerEntered_enterHandler vec _ _

/-! ### Exceptions -/

theorem sub_one_ne_sub_two (v : Word) : v - 1 ≠ v - 2 := by bv_omega

/-- Supervisor mode with every other bit of psr kept, and the rest as every entry leaves it (R173). -/
theorem exceptionEntered_exceptionEntry (code : BitVec 8) (s : State) :
    ExceptionEntered (code.setWidth 16) s (exceptionEntry code s) := by
  have h := handlerEntered_exceptionEntry code s
  refine ⟨h.savedUsp, h.savedSsp, h.stackPointer, h.regs, ?_, ?_, fun a hhigh hlow => ?_, ?_, fun k hk => ?_, h.pc, h.ie,
    h.halted, h.keyboard, h.display⟩
  · rw [h.cells, if_neg (sub_one_ne_sub_two _), if_pos rfl]
  · rw [h.cells, if_pos rfl]
  · rw [h.cells, if_neg hlow, if_neg hhigh]
  · rw [h.psr]; simp [psrToSupervisor]
  · rw [h.psr, psrToSupervisor_getLsbD _ k hk]

/-- Settles O39: RTI in user mode is the entry with code 0. -/
theorem rtiInUserModeIsAPrivilegeViolation : Obligations.RtiInUserModeIsAPrivilegeViolation :=
  fun s hm => ⟨_, exec_rti_of_user hm, exceptionEntered_exceptionEntry Config.excPrivilege s⟩

/-- The words 0xD000 to 0xDFFF are those with opcode 1101. -/
theorem opcode_of_range {ir : Word} (hlow : 0xD000 ≤ ir.toNat) (hhigh : ir.toNat ≤ 0xDFFF) :
    ir.extractLsb' 12 4 = 0b1101#4 := by
  apply BitVec.eq_of_toNat_eq
  rw [BitVec.extractLsb'_toNat, Nat.shiftRight_eq_div_pow]
  change ir.toNat / 4096 % 16 = 13
  omega

/-- Settles O40: opcode 1101 is the entry with code 1, whatever the mode. -/
theorem opcode1101IsAnIllegalOpcode : Obligations.Opcode1101IsAnIllegalOpcode :=
  ⟨fun _ hlow hhigh => decode_of_opcode_reserved (opcode_of_range hlow hhigh),
    fun s => ⟨_, rfl, exceptionEntered_exceptionEntry Config.excIllegal s⟩⟩

/-! ### INTERRUPT -/

theorem interrupt_of_disabled {s : State} (h : s.ie = false) (vec : BitVec 8) (pri : BitVec 3) (data : Word) :
    interrupt vec pri data s = (s, .rejected .disabled) := if_pos h

theorem interrupt_of_priority_le {s : State} {pri : BitVec 3} (hie : s.ie = true) (h : pri.toNat ≤ s.priority.toNat)
    (vec : BitVec 8) (data : Word) : interrupt vec pri data s = (s, .rejected .priorityTooLow) := by
  simp [interrupt, hie, h]

theorem interrupt_of_priority_lt {s : State} {pri : BitVec 3} (hie : s.ie = true) (h : s.priority.toNat < pri.toNat)
    (vec : BitVec 8) (data : Word) : interrupt vec pri data s = (interruptEntry vec pri data s, .serviced pri) := by
  simp [interrupt, hie, Nat.not_le.mpr h]

/-- A request not above the current priority changes nothing, whether interrupts are enabled or not. -/
theorem interrupt_state_of_priority_le {s : State} {pri : BitVec 3} (h : pri.toNat ≤ s.priority.toNat) (vec : BitVec 8)
    (data : Word) : (interrupt vec pri data s).1 = s := by
  cases hie : s.ie with
  | false => rw [interrupt_of_disabled hie]
  | true => rw [interrupt_of_priority_le hie h]

/-- Settles O41: no request is above priority 7, and one at priority 0 is above none. -/
theorem rejectedInterruptChangesNothing : Obligations.RejectedInterruptChangesNothing := by
  intro vec pri data s
  refine ⟨fun hie => interrupt_of_disabled hie vec pri data,
    fun hie hpri => interrupt_of_priority_le hie (Nat.not_lt.mp hpri) vec data, fun hpri => ?_, fun hpri => ?_⟩
  · exact interrupt_state_of_priority_le (by simp [hpri]) vec data
  · refine interrupt_state_of_priority_le ?_ vec data
    rw [hpri]
    exact Nat.le_of_lt_succ pri.isLt

theorem psrToSupervisor_priority (psr : Word) : psrPriority (psrToSupervisor psr) = psrPriority psr := by
  ext k hk
  have hbit := psrToSupervisor_getLsbD psr (8 + k) (by omega)
  simpa [psrPriority, hk] using hbit

/-- Settles O42: the entry of every handler, from the state in which the key has been delivered. -/
theorem servicedInterruptEntersItsHandler : Obligations.ServicedInterruptEntersItsHandler := by
  intro vec pri data s hie hpri
  have h := handlerEntered_interruptEntry vec pri data s
  refine ⟨_, interrupt_of_priority_lt hie hpri vec data, h.keyboard, h.savedUsp.trans (deliverKey_reg data s _),
    h.savedSsp.trans (deliverKey_savedSsp data s), ?_, fun i hi => (h.regs i hi).trans (deliverKey_reg data s i),
    fun a => ?_, ?_, ?_, fun k hk hfield => ?_, h.pc, h.ie.trans (deliverKey_ie data s),
    h.halted.trans (deliverKey_halted data s), ?_⟩
  · rw [h.stackPointer, deliverKey_savedSsp]
  · rw [h.cells, deliverKey_cell, deliverKey_savedSsp, deliverKey_pc, deliverKey_psr]
  · rw [State.priority, h.psr, psrToSupervisor_priority, psrWithPriority_priority]
  · rw [State.mode, h.psr, psrToSupervisor_mode]
  · rw [h.psr, psrToSupervisor_getLsbD _ k hk, psrWithPriority_getLsbD _ _ k hfield (by omega)]
  · simpa only [DisplayAfterPushes, DisplayKept, deliverKey_savedSsp, deliverKey_pc, deliverKey_psr,
      deliverKey_displayValid, deliverKey_displayValue] using h.display

/-! ### Returning -/

/-- Settles O38: what RTI pops it reads by MemRead, pc first; the reads alone reach the keyboard latch. -/
theorem rtiReturnsInSupervisorMode : Obligations.RtiReturnsInSupervisorMode := by
  refine ⟨fun ir => decode_of_opcode_rti, fun s hm => ⟨_, exec_rti_of_supervisor hm, exceptionReturn_pc s,
    exceptionReturn_psr_eq_memReadValue s, ?_, exceptionReturn_reg s _, exceptionReturn_savedUsp s,
    exceptionReturn_regsKept s, exceptionReturn_ie s, exceptionReturn_halted s, exceptionReturn_cell s,
    ⟨exceptionReturn_displayValid s, exceptionReturn_displayValue s⟩, ?_⟩⟩
  · rw [exceptionReturn_savedSsp, BitVec.add_assoc]; rfl
  · rw [KeyboardAfterReads, exceptionReturn_keyboardReady, readsEffect_eq_setKeyboardReady]; rfl

/-- RTI in supervisor mode over a frame below `sp` whose two cells read back: it pops pc and psr from it (R160). -/
theorem rti_pops_frame {u : State} {sp : Word} (hm : u.mode = .supervisor) (hsp : u.reg 6#3 = sp - 2)
    (hhigh₁ : sp - 1 ≠ 0xFE00#16) (hhigh₂ : sp - 1 ≠ 0xFE04#16) (hlow₁ : sp - 2 ≠ 0xFE00#16) (hlow₂ : sp - 2 ≠ 0xFE04#16) :
    ∃ r, exec .rti u = .next r ∧ r.pc = u.cell (sp - 2) ∧ r.psr = u.cell (sp - 1) ∧ r.reg 6#3 = u.savedUsp ∧
      r.savedSsp = sp ∧ r.savedUsp = u.savedUsp ∧ RegsKeptExcept [6#3] u r ∧ MemoryKept u r := by
  obtain ⟨_, hreturn⟩ := rtiReturnsInSupervisorMode
  obtain ⟨r, hexec, hpc, hpsr, hssp, hreg, husp, hregs, _, _, hmem, _⟩ := hreturn u hm
  have hnext : sp - 2 + 1 = sp - 1 := by bv_omega
  have htop : sp - 2 + 2 = sp := by bv_omega
  refine ⟨r, hexec, ?_, ?_, hreg, ?_, husp, hregs, hmem⟩
  · rw [hpc, hsp, memReadValue_plain hlow₁ hlow₂]
  · rw [hpsr, hsp, hnext, memReadValue_plain hhigh₁ hhigh₂, memReadEffect_cell]
  · rw [hssp, hsp, htop]

/-- What a return needs of an entry: where the frame stands and what it holds, and the stack pointer it replaced. -/
structure ContextSaved (s t : State) : Prop where
  savedUsp : t.savedUsp = s.reg 6#3
  savedSsp : t.savedSsp = s.savedSsp
  stackPointer : t.reg 6#3 = s.savedSsp - 2
  psrCell : t.cell (s.savedSsp - 1) = s.psr
  pcCell : t.cell (s.savedSsp - 2) = s.pc
  mode : t.mode = .supervisor

theorem ExceptionEntered.contextSaved {code : Word} {s t : State} (h : ExceptionEntered code s t) : ContextSaved s t := by
  obtain ⟨husp, hssp, hsp, _, hpsr, hpc, _, hmode, _⟩ := h
  exact ⟨husp, hssp, hsp, hpsr, hpc, by rw [State.mode, psrMode, hmode]; rfl⟩

theorem contextSaved_interrupt {vec : BitVec 8} {pri pri' : BitVec 3} {data : Word} {s t : State}
    (h : interrupt vec pri data s = (t, .serviced pri')) : ContextSaved s t := by
  rcases interrupt_cases vec pri data s with ⟨_, hi⟩ | ⟨_, _, hi⟩ | ⟨hie, hpri, _⟩
  · cases hi.symm.trans h
  · cases hi.symm.trans h
  · obtain ⟨t', ht', _, husp, hssp, hsp, _, hcells, _, hmode, _⟩ := servicedInterruptEntersItsHandler vec pri data s hie hpri
    cases ht'.symm.trans h
    exact ⟨husp, hssp, hsp, by rw [hcells, if_neg (sub_one_ne_sub_two _), if_pos rfl], by rw [hcells, if_pos rfl], hmode⟩

/-- Settles O43: the handler's RTI pops the frame that the entry built. -/
theorem rtiUndoesAnEntry : Obligations.RtiUndoesAnEntry := by
  intro s t u hentry hhigh₁ hhigh₂ hlow₁ hlow₂ hm hsp husp hpsrCell hpcCell
  have hsaved : ContextSaved s t := by
    rcases hentry with hreserved | ⟨hm, hrti⟩ | ⟨vec, pri, data, hinterrupt⟩
    · cases hreserved; exact (exceptionEntered_exceptionEntry _ s).contextSaved
    · cases (exec_rti_of_user hm).symm.trans hrti; exact (exceptionEntered_exceptionEntry _ s).contextSaved
    · exact contextSaved_interrupt hinterrupt
  obtain ⟨r, hexec, hpc, hpsr, hreg, hssp, _, hregs, hmem⟩ :=
    rti_pops_frame hm (hsp.trans hsaved.stackPointer) hhigh₁ hhigh₂ hlow₁ hlow₂
  refine ⟨r, hexec, ?_, ?_, ?_, hssp, hregs, hmem⟩
  · rw [hpc, hpcCell, hsaved.pcCell]
  · rw [hpsr, hpsrCell, hsaved.psrCell]
  · rw [hreg, husp, hsaved.savedUsp]

/-- Settles O44: the second entry builds its frame where the first one stood, and both returns pop that frame; the first
return leaves x[6] and saved_usp at the stack pointer that the second entry saved. -/
theorem nestedEntryLosesTheFirstContext : Obligations.NestedEntryLosesTheFirstContext := by
  intro s t u vec₁ vec₂ pri₁ pri₂ data₁ data₂ hfirst hsecond hhigh₁ hhigh₂ hlow₁ hlow₂
  have ht := contextSaved_interrupt hfirst
  have hu := contextSaved_interrupt hsecond
  obtain ⟨husp, _, hsp, hpsrCell, hpcCell, hm⟩ := hu
  rw [ht.savedSsp] at hsp hpsrCell hpcCell
  obtain ⟨v, hv, hvpc, hvpsr, hvreg, _, hvusp, _, hvmem⟩ := rti_pops_frame hm hsp hhigh₁ hhigh₂ hlow₁ hlow₂
  rw [hpcCell] at hvpc
  rw [hpsrCell] at hvpsr
  rw [husp] at hvreg hvusp
  have hvm : v.mode = .supervisor := by rw [State.mode, hvpsr]; exact ht.mode
  obtain ⟨w, hw, hwpc, hwpsr, hwreg, _, hwusp, _, _⟩ :=
    rti_pops_frame hvm (hvreg.trans ht.stackPointer) hhigh₁ hhigh₂ hlow₁ hlow₂
  rw [hvmem, hpcCell] at hwpc
  rw [hvmem, hpsrCell] at hwpsr
  rw [hvusp, ht.stackPointer] at hwreg hwusp
  exact ⟨v, w, hv, hvpc, hvpsr, hvreg, hw, hwpc, hwpsr, by rw [State.mode, hwpsr]; exact ht.mode, hwreg, hwusp⟩

end Sys2Proof.Machine
end

section
/-! Proofs about single operations: addresses and operands, MemRead, BR and JSRR, RESET, START, the placing of a word, a store
into the next instruction, and the host's accesses. -/

namespace Sys2Proof.Machine

open Sys2Proof

/-! ### Addresses, operands and MemRead -/

/-- Settles O14: adding a sign-extended field adds its signed value, modulo 65536. -/
theorem addressesAreSumsModulo65536 : Obligations.AddressesAreSumsModulo65536 := fun s =>
  ⟨fun off => pcRelative9_toNat off s, fun off => pcRelative11_toNat off s,
    fun base off => toNat_add_sext (s.reg base) off (by decide)⟩

/-- A read of KBDR has nothing left to clear, and its value is the cell, which no latch decides. -/
theorem memReadValue_after_memReadEffect {a : Word} (ha : a = 0xFE02#16) (s : State) :
    memReadValue a (memReadEffect a s) = memReadValue a s := by
  subst ha
  rw [memReadValue_plain (by decide) (by decide), memReadValue_plain (by decide) (by decide), memReadEffect_cell]

/-- Settles O16: one clause per address that MemRead maps, and one for the others. -/
theorem memReadMapsThreeAddresses : Obligations.MemReadMapsThreeAddresses := by
  intro a s
  refine ⟨?_, ?_, ?_, fun hkbsr hdsr => memReadValue_plain hkbsr hdsr s, fun ha => if_neg ha, fun ha => ?_⟩
  · rintro rfl hready; simp [memReadValue, hready, Params.kbsrReadyValue]
  · rintro rfl hidle; simp [memReadValue, hidle, Params.kbsrIdleValue]
  · rintro rfl; rfl
  · have heffect : memReadEffect a s = s.setKeyboardReady false := if_pos ha
    refine ⟨?_, ?_, memReadValue_after_memReadEffect ha s⟩
    · rw [heffect]; rfl
    · rw [heffect]; rfl

/-- Settles O23: the two forms read their second operand in different ways and do the same with it. -/
theorem immediateAndRegisterFormsAgree : Obligations.ImmediateAndRegisterFormsAgree := by
  intro dr sr1 sr2 imm5 s hequal
  constructor
  · simp only [exec, execAddImm, execAddReg, hequal]
  · simp only [exec, execAndImm, execAndReg, hequal]

/-! ### BR and JSRR -/

theorem flags_getLsbD (s : State) {k : Nat} (hk : k < 3) : s.flags.getLsbD k = s.psr.getLsbD k := by
  simp [State.flags, psrFlags, hk]

/-- Two flag patterns meet when they share N, Z or P (R140). -/
theorem and_ne_zero_iff : ∀ f g : BitVec 3, f &&& g ≠ 0#3 ↔
    (f.getLsbD 2 = true ∧ g.getLsbD 2 = true) ∨ (f.getLsbD 1 = true ∧ g.getLsbD 1 = true) ∨
      (f.getLsbD 0 = true ∧ g.getLsbD 0 = true) := by
  decide

/-- Settles O31: the branch is taken exactly when the requested conditions meet the flags. -/
theorem brBranchesOnARequestedFlag : Obligations.BrBranchesOnARequestedFlag := by
  refine ⟨fun ir => decode_of_opcode_br, fun nzp off s => ?_⟩
  have hmeet := and_ne_zero_iff nzp s.flags
  rw [flags_getLsbD s (by decide), flags_getLsbD s (by decide), flags_getLsbD s (by decide)] at hmeet
  rw [← hmeet]
  by_cases htaken : nzp &&& s.flags = 0#3
  · exact ⟨s, exec_br_of_not_taken off htaken, rfl, fun h => absurd htaken h, fun _ => rfl⟩
  · exact ⟨_, exec_br_of_taken off htaken, rfl, fun _ => rfl, fun h => absurd htaken h⟩

/-- Settles O34: the base is read after the link, which R7 sees and no other register does. -/
theorem jsrrLinksBeforeItReadsTheBase : Obligations.JsrrLinksBeforeItReadsTheBase := by
  refine ⟨fun ir hop hmode => ?_, fun base s => ⟨_, rfl, link_reg_linkRegister s, fun hbase => link_reg_of_ne s hbase, ?_,
    link_setPc_frame s _⟩⟩
  · rw [decode_of_opcode_jsr hop, hmode]; rfl
  · rintro rfl; exact link_reg_linkRegister s

/-! ### RESET and START -/

theorem reset_reg (i : Reg) : State.reset.reg i = 0x0000#16 := by
  simp [State.reg, State.reset, Params.resetX]

/-- Settles O1: RESET answers `State.reset`, whose fields are the table's values. -/
theorem resetLeavesTheTableOfResetValues : Obligations.ResetLeavesTheTableOfResetValues :=
  ⟨fun _ => rfl, rfl, fun _ => rfl, reset_reg, rfl, rfl, rfl, rfl, rfl, rfl, rfl, rfl, rfl, rfl, rfl⟩

theorem start_cell (s : State) (a : Word) :
    (start s).cell a = if a = 0xFFFE#16 then s.cell 0xFFFE#16 ||| 0x8000#16 else s.cell a := by
  rw [start, State.cell_setCell]
  simp only [eq_comm]; rfl

/-- Settles O56: START writes one bit of one cell and `halted`. -/
theorem startRunsTheCoreAndSetsTheRunBit : Obligations.StartRunsTheCoreAndSetsTheRunBit := by
  refine fun s => ⟨start s, rfl, rfl, ?_, fun k hk => ?_, fun a ha => ?_, rfl⟩
  · rw [start_cell, if_pos rfl, BitVec.getLsbD_or]; simp
  · rw [start_cell, if_pos rfl, BitVec.getLsbD_or]
    interval_cases k <;> simp
  · rw [start_cell, if_neg ha]

/-! ### The word placed at pc -/

/-- Where a fetch never sees the cell, the next address is one where it does. -/
theorem readMapped_next {a : Word} (h : readMapped a = true) : readMapped (a + 1) = false := by
  have ha : a = Config.kbsrAddr ∨ a = Config.dsrAddr := by simpa [readMapped] using h
  rcases ha with rfl | rfl <;> decide

theorem memReadValue_of_not_readMapped {a : Word} (h : readMapped a = false) (s : State) : memReadValue a s = s.cell a := by
  have ha : a ≠ Config.kbsrAddr ∧ a ≠ Config.dsrAddr := by simpa [readMapped] using h
  exact memReadValue_plain ha.1 ha.2 s

theorem fetchWord_setCell_pc {s : State} (h : readMapped s.pc = false) (w : Word) : fetchWord (s.setCell s.pc w) = w := by
  rw [fetchWord, State.setCell_pc, memReadValue_of_not_readMapped h, State.cell_setCell, if_pos rfl]

/-- The boot sequence runs the core and stores the word at a pc where the fetch reads the cell (log entry 11). -/
theorem placeInstruction_eq_setCell (w : Word) (s : State) :
    ∃ u : State, placeInstruction w s = u.setCell u.pc w ∧ u.halted = false ∧ readMapped u.pc = false := by
  have hstarted : (if s.halted then start s else s).halted = false := by
    split
    · rfl
    · next hhalted => exact Bool.eq_false_iff.mpr hhalted
  unfold placeInstruction
  generalize (if s.halted then start s else s) = t at hstarted ⊢
  cases hmapped : readMapped t.pc with
  | true => exact ⟨t.setPc (t.pc + 1), by simp [hmapped], hstarted, readMapped_next hmapped⟩
  | false => exact ⟨t, by simp [hmapped], hstarted, hmapped⟩

/-- Settles O12: the word is in the cell at a pc where the fetch reads the cell. -/
theorem placedWordIsFetchedNext : Obligations.PlacedWordIsFetchedNext := by
  intro s nbits w hbits hw
  obtain ⟨u, hplaced, hrun, hplain⟩ := placeInstruction_eq_setCell (BitVec.ofNat 16 (w % 2 ^ nbits)) s
  have hfetch : fetchWord (s.withFetchWord nbits w) = BitVec.ofNat 16 w := by
    rw [State.withFetchWord, hplaced, fetchWord_setCell_pc hplain, Nat.mod_eq_of_lt hw]
  refine ⟨?_, hfetch, ?_⟩
  · rw [State.withFetchWord, hplaced, State.setCell_halted, hrun]
  · rw [hfetch, decodeTableWord, decodeBits, if_pos hbits, Nat.mod_eq_of_lt hw]; rfl

/-! ### A store into the next instruction -/

/-- After a CLOCK whose instruction stores at its own new pc, the fetch reads what was stored. -/
theorem step_fetches_stored {s u : State} {ea v : Word} (hrun : s.halted = false)
    (hexec : exec (decode (fetchWord s)) (fetchEffect s) = .next (memWrite ea v u)) (hpc : u.pc = ea)
    (hkbsr : ea ≠ 0xFE00#16) (hdsr : ea ≠ 0xFE04#16) : ∃ t, step s = .next t ∧ t.pc = ea ∧ fetchWord t = v := by
  have htpc : (poll (memWrite ea v u)).1.pc = ea := by rw [poll_pc, memWrite_pc, hpc]
  refine ⟨_, step_of_exec hrun hexec, htpc, ?_⟩
  rw [fetchWord, htpc, memReadValue_plain hkbsr hdsr, poll_cell, memWrite_cell, if_pos rfl]

/-- Settles O54: each store writes by MemWrite after its reads, and reads nothing of pc but the fetched increment. -/
theorem storeIsSeenByTheNextFetch : Obligations.StoreIsSeenByTheNextFetch := by
  intro s sr ea hrun hstore hnext hkbsr hdsr
  have hexec : ∃ u, exec (decode (fetchWord s)) (fetchEffect s) = .next (memWrite ea (s.reg sr) u) ∧ u.pc = s.pc + 1 := by
    rw [← fetchEffect_reg]
    rcases hstore with ⟨off, hdecode, rfl⟩ | ⟨off, hdecode, rfl⟩ | ⟨base, off, hdecode, rfl⟩ <;> rw [hdecode]
    · exact ⟨_, rfl, fetchEffect_pc s⟩
    · exact ⟨_, rfl, (memReadEffect_pc _ _).trans (fetchEffect_pc s)⟩
    · exact ⟨_, rfl, fetchEffect_pc s⟩
  obtain ⟨u, hu, hpc⟩ := hexec
  exact step_fetches_stored hrun hu (hpc.trans hnext.symm) hkbsr hdsr

/-! ### The host's accesses -/

theorem regOfCode_eq (c : Nat) : regOfCode c = BitVec.ofNat 3 (c % 8) := by
  apply BitVec.eq_of_toNat_eq; simp [regOfCode]

theorem bitWord_eq (b : Bool) : bitWord b = if b = true then 1#16 else 0#16 := by
  cases b <;> rfl

/-- A host write of a register reads back in full, but for ie, which holds one bit (R23, R36). -/
theorem hostRegValue_hostRegWrite {r : HostReg} (hr : r ≠ .ie) (v : Word) (s : State) :
    hostRegValue r (hostRegWrite r v s) = v := by
  cases r with
  | x code => exact State.reg_setReg_same s _ v
  | ie => exact absurd rfl hr
  | pc | psr | savedUsp | savedSsp => rfl

theorem setReg_regsKept (s : State) (i : Reg) (v : Word) : RegsKeptExcept [i] s (s.setReg i v) :=
  fun _ hj => State.reg_setReg_ne s v fun h => hj (List.mem_singleton.mpr h.symm)

/-- Settles O57: each operation is one accessor of the state, with the code masked to three bits. -/
theorem hostReadsBackWhatItWrites : Obligations.HostReadsBackWhatItWrites := by
  refine ⟨fun c s => ?_, fun s => ⟨rfl, rfl, rfl, rfl, ?_, ?_⟩, fun c v s => ?_, fun v s => ⟨rfl, rfl, rfl, rfl, ?_⟩,
    fun r v s => ⟨_, rfl, fun hr => ?_⟩, fun _ _ => rfl, fun _ _ _ => rfl⟩
  · rw [← regOfCode_eq]; rfl
  · rw [← bitWord_eq]; rfl
  · rw [← bitWord_eq]; rfl
  · rw [← regOfCode_eq]
    exact ⟨_, rfl, State.reg_setReg_same s _ v, setReg_regsKept s _ v, rfl⟩
  · have hie : (v != 0#16) = decide (v ≠ 0#16) := by rw [Bool.eq_iff_iff]; simp
    rw [← hie]; rfl
  · simp only [perform, hostRegRead, hostRegValue_hostRegWrite hr]

end Sys2Proof.Machine
end
